-- ==== Sys2Proof/Word.lean ====
section
/-!
DEFINITION. The word types of the ML3-52 model: bytes, register words, and the sparse canonical
map in which the model holds every large array of state (spec/00_scope.md R4 to R7).
-/
namespace Sys2Proof

/-- A byte. -/
abbrev Byte := BitVec 8

/-- A register word: "A register is 32 bits wide" (00_scope.md R7). -/
abbrev W32 := BitVec 32

/-- A 64-bit value (a register pair, a payload slot of an event record). -/
abbrev W64 := BitVec 64

/-- A grout address: 48 bits (10_grout_network.md R339). -/
abbrev Addr := BitVec 48

/-- Sparse data by key: a list of key and value pairs, keys strictly rising, no entry equal to the
value an unlisted key reads as. The operations that keep that form are in Machine/SMap.lean. -/
abbrev SMap (α : Type) := List (Nat × α)

end Sys2Proof
end

