-- ==== Sys2Proof/Syntax.lean ====
section
/-!
DEFINITION. The commands of the ML3-52: one constructor of `Instr` per row of spec/opcode_table.json,
with the operands the row's rule gives it. Spatu requests carry the whole packet less its opcode
(02 R44); engine instructions carry the engine and the fields of 12 R424; events carry what the
event's own rule says is observed.
-/
namespace Sys2Proof

/-- A Spatu request as a port delivers it, less the opcode (02 R44, R45). `body` is everything after
the 16-byte header: the parameters, then the trailer where there is one. -/
structure Cmd where
  port : Fin 8
  source : BitVec 16
  tag : BitVec 16
  paramLength : W32
  flags : BitVec 16
  body : List Byte
deriving DecidableEq, Repr

/-- A request packet: the opcode and the rest (02 T2.4). -/
structure Packet where
  opcode : BitVec 16
  cmd : Cmd
deriving DecidableEq, Repr

/-- An endpoint of grout: a router and an index (10 R338). -/
structure Endpoint where
  x : Nat
  y : Nat
  ep : Nat
deriving DecidableEq, Repr

/-- The two grout request operations (10 T10.4). -/
inductive GOp where
  | read
  | write
deriving DecidableEq, Repr

/-- A grout request (10 R341, T10.4). `len` is bytes minus 1. `data` holds the bytes from `addr` on,
in order; `byteEn` is relative to the 256-byte block, as is `poison` (bit q: unit q). -/
structure GReq where
  src : Endpoint
  master : BitVec 16
  op : GOp
  addr : Addr
  len : BitVec 8
  tag : BitVec 10
  byteEn : BitVec 256
  data : List Byte
  poison : BitVec 4
  mgmt : Bool
deriving DecidableEq, Repr

/-- A grout response: the request it answers, its status (04 T4.12), data and poison. -/
structure GResp where
  req : GReq
  status : BitVec 4
  data : List Byte
  poison : BitVec 4
deriving DecidableEq, Repr

/-- A logic element: brick, brick-local tile (u, v), LE index (03 R88, R90). -/
structure LeAddr where
  brick : Fin 8
  u : Fin 640
  v : Fin 640
  k : Fin 16
deriving DecidableEq, Repr

/-- A tile of a brick, by its brick-local coordinates (03 R90). -/
structure TileAddr where
  brick : Fin 8
  u : Fin 640
  v : Fin 640
deriving DecidableEq, Repr

/-- One slab user port's inputs at an edge (05 T5.3). -/
structure SlabReq where
  en : Bool
  we : Bool
  be : BitVec 16
  addr : Nat
  din : BitVec 128
  pin : BitVec 16
deriving DecidableEq, Repr

/-- A seam wire group: seam, direction, group (04 R110). -/
structure SeamGroup where
  seam : Fin 10
  dir : Fin 2
  group : Fin 1280
deriving DecidableEq, Repr

/-- The span of a segment of course or global mortar (04 T4.1): 1, 2 and 4 courses, 16 and 64 courses, the brick. -/
inductive Span where
  | one | two | four | sixteen | sixtyFour | brick
deriving DecidableEq, Repr

/-- A signal that arrives in a junction of course mortar from outside the mortar of its brick: a seam wire (04 R111), an
incoming fold wire, which in Ethernet and raw use is a lane's rx_data (08 R265, 09 R326), an output bit of a fabric port
(04 T4.11) or of a slab user port (05 R150), an I/O cell's input (04 R136), a lane's rx_ctl or one of its two clocks (09
R326), and fx_in (18 R585). -/
inductive FabIn where
  | seam (g : SeamGroup) (wire : Fin 32)
  | fold (g : Fin 32) (wire : Fin 4096)
  | port (q : Fin 512) (bit : Fin 4440)
  | slab (brick : Fin 8) (slab : Fin 25600) (portB : Bool) (bit : Fin 145)
  | io (bank : Fin 32) (pin : Fin 48) (bit : Fin 8)
  | rxCtl (l : Fin 256) (bit : Fin 64)
  | laneClk (l : Fin 256) (rx : Bool)
  | fx (k : Fin 64)
deriving DecidableEq, Repr

/-- A sink of a junction of course mortar: a tile's input pin (`pin` 0 to 95, and 96, 97 its gate inputs tge0, tge1: 03 R88,
04 R129), a segment that starts here (04 R105), a seam wire (04 R111), an outgoing fold wire (08 R265), an input bit of a
fabric port (04 T4.11) or of a slab user port (05 R150), an I/O cell's output data or enable (bit 8), a lane's tx_ctl (09
R326), fx_out and fx_oe (18 R585), a trigger line (07 R242), and the input of a global or regional buffer (04 R125, R127). -/
inductive FabOut where
  | tile (t : Fin 16) (pin : Fin 98)
  | seg (dir : Fin 4) (span : Span) (track : Nat)
  | seam (g : SeamGroup) (wire : Fin 32)
  | fold (g : Fin 32) (wire : Fin 4096)
  | port (q : Fin 512) (bit : Nat)
  | slab (portB : Bool) (bit : Nat)
  | io (bank : Fin 32) (pin : Fin 48) (bit : Fin 9)
  | txCtl (l : Fin 256) (bit : Fin 64)
  | fx (k : Fin 64) (oe : Bool)
  | trig (l : Fin 64)
  | gbuf (i : Fin 8)
  | rbuf (band : Fin 8) (line : Fin 24)
deriving DecidableEq, Repr

/-- What drives a sink of a junction: an output of one of the course's tiles, a segment that ends here, by the junction
where it starts, or a signal that arrives here (04 R106 to R108). -/
inductive FabSrc where
  | out (t : Fin 16) (i : Fin 64)
  | seg (a b : Fin 160) (dir : Fin 4) (span : Span) (track : Nat)
  | arrive (x : FabIn)
deriving DecidableEq, Repr

/-- The source of a global line (04 R125): a user-clock generator or the beat generator of the hub, the clock-capable pair
0 or 12 of a bank (R132), or one of the 8 global buffers of a brick. -/
inductive LineSrc where
  | generator (k : Fin 16)
  | beat
  | pair (bank : Fin 32) (twelve : Bool)
  | buffer (brick : Fin 8) (i : Fin 8)
deriving DecidableEq, Repr

/-- The source of a regional line of a band (04 R127): a global line, a clock-capable pair of a bank of its own brick, or a
regional buffer of the band. -/
inductive BandSrc where
  | line (g : Fin 64)
  | pair (bank : Fin 4) (twelve : Bool)
  | buffer
deriving DecidableEq, Repr

/-- An edge of a regional line whose source is a pin or a net (04 R127). -/
structure BandEdge where
  brick : Fin 8
  band : Fin 8
  line : Fin 24
  rise : Bool
deriving DecidableEq, Repr

/-- What happens in the fabric at one instant (03 T3.6): edges of lines, and the levels of the signals that come from
outside the part or that another unit drives. Every pin of every LE follows from these, the image and the state. -/
structure FabEvent where
  /-- further than the first command of this instant: pins show the storage as it stood before the instant's first -/
  same : Bool
  /-- global lines whose source rises, and falls -/
  rises : W64
  falls : W64
  /-- edges of regional lines that no global line drives -/
  regional : List BandEdge
  /-- the restore strobe (07 R227) -/
  restore : Bool
  /-- an asynchronous line is deasserted inside the recovery and removal window (03 R86) -/
  inWindow : Bool
  /-- the arriving signals at 1, of those whose level no state of the part gives -/
  high : List FabIn
deriving DecidableEq, Repr

/-- Edges of clock lines at one instant: global lines whose source rises, those whose source falls, and edges of regional
lines that no global line drives. -/
structure LineEdges where
  rises : W64
  falls : W64
  regional : List BandEdge
deriving DecidableEq, Repr

/-- A flip-flop: one of an LE's two (03 T3.2), a seam register of a wire (04 R112), or the registers of an I/O cell (04
R134). -/
inductive FfAt where
  | le (a : LeAddr) (ff1 : Bool)
  | seam (g : SeamGroup) (wire : Fin 32)
  | io (bank : Fin 32) (pin : Fin 48)
deriving DecidableEq, Repr

/-- The reset kinds and causes (15 R525, T15.10). -/
inductive ResetCause where
  | powerOn | resetN | pwrReset | watchdog | mismatch | wake | thermalTrip | vinLost
deriving DecidableEq, Repr

/-- What woke the part (15 R512). -/
inductive WakeCause where
  | wakeN | rtc | tamper
deriving DecidableEq, Repr

/-- The unit an adaptive loop holds (15 T15.9, 09 R312). -/
inductive LoopUnit where
  | island (u : Nat)
  | droop
  | dram (c : Fin 8) (rank : Nat)
  | seam (g : SeamGroup)
  | lane (l : Fin 256)
deriving DecidableEq, Repr

/-- The islands a droop may hit (15 R530). -/
inductive DroopIsland where
  | brick (n : Fin 8)
  | engine (e : Fin 192)
  | steward
  | grout
deriving DecidableEq, Repr

/-- A domain operation of the beat layer (08 R278, R280). -/
structure DomOp where
  op : BitVec 8
  origin : BitVec 8
  opSeq : BitVec 16
  arg : W32
  target : W64
deriving DecidableEq, Repr

/-- A bond frame (08 T8.3). -/
structure Frame where
  kind : BitVec 8
  seq : BitVec 12
  ackValid : Bool
  ack : BitVec 12
  beat : W32
  session : W32
  payload : List Byte
  op : Option DomOp
deriving DecidableEq, Repr

/-- A time frame of the bond link: the group that it came on and the time at which it was sent (08 R282). -/
structure TimeFrame where
  group : Fin 32
  sent : W64
deriving DecidableEq, Repr

/-- The outcome of one group's training as hardware finds it (08 R297). -/
structure GroupTrain where
  group : Fin 32
  up : Bool
  cause : BitVec 4
  usable : BitVec 8
  tLink : BitVec 16
deriving DecidableEq, Repr

/-- How a lane's retrain ended (08 T8.4). -/
inductive RetrainResult where
  | selfTestFailed
  | prbsErrors (errors : Nat)
  | passed
deriving DecidableEq, Repr

/-- One reference reading of a lane die (09 R305): deviation from the declared frequency in ppm, or
no edge for 10 us; `goodFor` is how long, in ms, the reference has been within limits. -/
structure RefReading where
  declared : Bool
  noEdge : Bool
  ppm : Int
  goodFor : Nat
deriving DecidableEq, Repr

/-- How an eye scan ended (09 R316, R332). -/
inductive ScanEnd where
  | complete (maxErrors : W32)
  | lockLost (points : W32) (maxErrors : W32)
  | writeRefused (points : W32) (maxErrors : W32) (status : BitVec 4)
deriving DecidableEq, Repr

/-- A DIMM's own decode of a line, as the DRAM read finds it (13 T13.3). -/
inductive LineDecode where
  | clean
  | corrected (device : Nat)
  | uncorrectable
  /-- a genuine error that decodes to the poison syndrome (13 R440) -/
  | syndrome
deriving DecidableEq, Repr

/-- The outcome of a channel's training, as the DIMMs give it (13 R431). -/
structure ChanTrain where
  chan : Fin 8
  cause : BitVec 4
  mts : BitVec 16
  capGiB : BitVec 16
deriving DecidableEq, Repr

/-- What a host configuration write does (09 R320, R316). -/
inductive CfgWrite where
  | bme (on : Bool)
  | d3hot (on : Bool)
  | margin (lane : Nat) (start : Bool)
deriving DecidableEq, Repr

/-- A memory slot of an access prefix (12 T12.10). -/
structure Slot where
  en : Bool
  store : Bool
  reg : Fin 32
  ptr : Fin 8
  useMod : Bool
deriving DecidableEq, Repr

/-- The compute word of a 64-bit engine instruction: major opcode, the register fields and func of
12 T12.7, and the 16-bit immediate (12 R426). -/
structure ComputeWord where
  major : BitVec 6
  rd : Fin 32
  ra : Fin 32
  rb : Fin 32
  func : BitVec 6
  imm : BitVec 16
  acd : Fin 4
  acs : Fin 4
  sh : BitVec 6
deriving DecidableEq, Repr

/-- The M-format address fields of LD and ST (12 T12.5, T12.7). -/
structure MemForm where
  ptr : Fin 8
  am : Fin 4
  size : Fin 4
  sx : Bool
  disp : BitVec 13
deriving DecidableEq, Repr

/-- The commands: one constructor per row of the opcode table. -/
inductive Instr where
  | powerOnReset (vioSvc33 : Bool)
  | guestTrainingDeadline
  | intakeOpen
  | fullReset (cause : ResetCause)
  | resetNAsserted
  | watchdogExpiry (busAddr : W64)
  | stewardMismatch (busAddr : W64)
  | vinLost
  | thermalTrip (die : Fin 25) (sensor : Fin 16) (reading : BitVec 16)
  | tamperAsserted
  | wake (cause : WakeCause)
  | rtcMatch
  | dormantEntry
  | powerLimitStep (watts : Nat) (below : Bool)
  | holdForced (watts : Nat)
  | xoReading (ppm : Int)
  | xoFailed
  | refMonitorReading (alternate : Bool) (reading : BitVec 24)
  | refMissingEdges
  | standbyPllLocked
  | adaptiveLoopStep (unit : LoopUnit) (up : Bool)
  | seamSamplingStep (g : SeamGroup) (up : Bool)
  | droopStretch (island : DroopIsland)
  | vioLost (bank : Fin 32)
  | vioRestored (bank : Fin 32)
  | vioSvcLost
  | vioSvcRestored (v33 : Bool)
  | devIdent (c : Cmd)
  | devInventory (c : Cmd)
  | cmdPoll (c : Cmd)
  | cmdCounterRead (c : Cmd)
  | packetSubmit (port : Fin 8) (source : BitVec 16) (bytes : List Byte)
  | serialPacketTimeout (port : Fin 8)
  | intakeCycle
  | lockoutEnd (port : Fin 8)
  | requestWithdraw (port : Fin 8)
  | sessionTimeout
  | completionDiscarded (port : Fin 8) (source : BitVec 16) (tag : BitVec 16)
  | backgroundCompletion (port : Fin 8) (source : BitVec 16) (tag : BitVec 16) (others : BitVec 16)
  | notificationDelivery (port : Fin 8) (source : BitVec 16) (tag : BitVec 16)
  | cmdMbDoorbellSubmit (ctl : Fin 2) (value : W32)
  | cmdMbReplyTaken (ctl : Fin 2) (value : W32)
  | cmdRankCommit (value : W32)
  | streamApertureWrite (ctl : Fin 2) (bytes : List Byte)
  | registerWrite (addr : Addr) (value : W32)
  | registerPairLowRead (addr : Addr)
  | hubControlRequest (r : GReq)
  | cfgBegin (c : Cmd)
  | cfgData (c : Cmd)
  | cfgEnd (c : Cmd)
  | cfgAbort (c : Cmd)
  | cfgBoot (c : Cmd)
  | cfgReleaseSet (c : Cmd)
  | cfgStatus (c : Cmd)
  | bootLoadStart
  | imageHeaderReceived
  | imageChunkReceived
  | imageTrailerReceived
  | imageIdleTimeout
  | slabInitDone
  | stagedReleaseStep
  | fabSeamRepair (c : Cmd)
  | fabStatus (c : Cmd)
  | ffUpdate (ff : FfAt) (ev : FabEvent)
  | lutRamWrite (tile : TileAddr) (same : Bool) (rises falls : W64) (regional : List BandEdge) (high : List FabIn)
  | shiftRegisterShift (tile : TileAddr) (same : Bool) (edges : LineEdges) (high : List FabIn)
  | slabPortAccess (brick : Fin 8) (slab : Fin 25600) (a b : Option SlabReq)
  | copingWindowAccess (r : GReq)
  | scrubTick (die : Fin 8)
  | throttleSample (readings : List (Nat × BitVec 16))
  | cpgCntClear (value : W32)
  | cpgScrubSet (c : Cmd)
  | cpgStatus (c : Cmd)
  | tqRequest (q : Fin 512)
  | trResponse (q : Fin 512) (tag : BitVec 6) (err : Bool) (data : List Byte) (poison : BitVec 4)
  | iqRequest (q : Fin 512) (op : GOp) (addr : Addr) (len : BitVec 8) (tag : BitVec 6)
      (byteEn : BitVec 256) (data : List Byte) (poison : BitVec 4)
  | irResponse (q : Fin 512)
  | capTake (c : Cmd)
  | capRestore (c : Cmd)
  | capReadback (c : Cmd)
  | capTraceSet (c : Cmd)
  | capTriggerSet (c : Cmd)
  | capClockRun (c : Cmd)
  | capStatus (c : Cmd)
  | captureEdge (passed : Nat)
  | captureDrainDone
  | restoreLoadDone
  | dutStop (passed : Nat)
  | dutRestart
  | traceSample (brick : Fin 8)
  | traceBlockWrite (brick : Fin 8)
  | triggerSample (unit : Fin 16) (passed : Nat) (active : List (BitVec 16))
  | triggerFired (unit : Fin 16)
  | beatEdge (stretchNs : Nat) (bySender : Bool)
  | beatFrameReceived (g : Fin 32) (words : List Byte) (crc : W64)
  | nakReceived (g : Fin 32) (seq : BitVec 12) (gap : Bool)
  | replayTimerExpiry (g : Fin 32)
  | bondTimeAlign (m : TimeFrame)
  | domainOpReceived (g : Fin 32) (op : DomOp)
  | groupAckTimeout (g : Fin 32)
  | resumeWindowEnd
  | holdFrameReceived (g : Fin 32)
  | resumeFrameReceived (g : Fin 32)
  | peerHoldTimeout (g : Fin 32)
  | leaveReceived (g : Fin 32) (otherSession : Bool)
  | tunnelRequestArrived (g : Fin 32) (dest : BitVec 6) (r : GReq)
  | tunnelResponseArrived (g : Fin 32) (r : GResp)
  | tunnelTimeout (g : Fin 32) (r : GReq)
  | relayTimeout
  | bndDomainSet (c : Cmd)
  | bndTrain (c : Cmd)
  | bndWindowSet (c : Cmd)
  | bndResumeSet (c : Cmd)
  | bndRelay (c : Cmd)
  | bndStatus (c : Cmd)
  | bndTrainDone (results : List GroupTrain) (others : List (BitVec 6 × List (BitVec 6))) (kMax : Byte) (allUp : Bool) (session : W32)
  | laneLockLost (l : Fin 256)
  | laneRetrainDone (l : Fin 256) (result : RetrainResult)
  | refCheck (die : Fin 8) (a b : RefReading)
  | bringupSetReceived (l : Fin 256) (first : BitVec 10) (rest : List (BitVec 10))
  | bringupTimeout (l : Fin 256)
  | trainingBlocksDone (l : Fin 256)
  | blockLockChange (l : Fin 256) (blocks : List (List (BitVec 2)))
  | prbsCheckerLock (l : Fin 256) (bits : List Bool)
  | eyeScanDone (l : Fin 256) (outcome : ScanEnd)
  | lnsConfig (c : Cmd)
  | lnsLoop (c : Cmd)
  | lnsPrbs (c : Cmd)
  | lnsEyeScan (c : Cmd)
  | lnsStatus (c : Cmd)
  | perstAsserted (ctl : Fin 2)
  | pcieLinkUp (ctl : Fin 2) (width : BitVec 3) (rate : BitVec 4) (flit : Bool)
  | pcieLinkDown (ctl : Fin 2) (cause : BitVec 3)
  | pcieRecoveryRetrain (ctl : Fin 2) (lane : Fin 16)
  | bar4Request (ctl : Fin 2) (op : GOp) (offset : BitVec 36) (len : BitVec 8) (tag : BitVec 10)
      (byteEn : BitVec 256) (data : List Byte) (poisoned : Bool)
  | hostWindowRequest (r : GReq) (completion : Option (Bool × List Byte × Bool))
  | hostWindowTimeout (r : GReq)
  | ethPortStateChange (lane : Fin 256) (up : Bool) (cause : BitVec 2)
  | groutRequest (r : GReq)
  | groutResponse (r : GResp)
  | roundStart
  | deadTarget (e : Endpoint) (noResponse : Bool)
  | fenceReq (unit : Fin 17) (router : Fin 576)
  | drained (unit : Fin 17) (router : Fin 576)
  | fenced (unit : Fin 17)
  | fenceDrainTimeout (unit : Fin 17)
  | grtFence (c : Cmd)
  | grtUnfence (c : Cmd)
  | grtSlotSet (c : Cmd)
  | grtProbeSet (c : Cmd)
  | grtStatus (c : Cmd)
  | engineWindowAccess (r : GReq)
  | globalLoadResponse (e : Fin 192) (status : BitVec 4) (data : List Byte) (poison : Bool)
  | storePerform (e : Fin 192)
  | storeResponse (e : Fin 192) (status : BitVec 4)
  | exceptionEntry (e : Fin 192) (code : BitVec 8)
  | timerMatch (e : Fin 192)
  | dmaGo (e : Fin 192)
  | dmaAbort (e : Fin 192)
  | dmaPacketResponse (e : Fin 192) (status : BitVec 4) (data : List Byte) (poison : BitVec 4)
  | engIrqRaise (e : Fin 192) (value : W32)
  | engMbDoorbell (e : Fin 192) (value : W32)
  | engMbAck (e : Fin 192) (value : W32)
  | haltGroupRequest (e : Fin 192)
  | engineStopTimeout (e : Fin 192)
  | engLoad (c : Cmd)
  | engStart (c : Cmd)
  | engStop (c : Cmd)
  | engStatus (c : Cmd)
  | add (e : Fin 192) (rd ra rb : Fin 32)
  | sub (e : Fin 192) (rd ra rb : Fin 32)
  | and (e : Fin 192) (rd ra rb : Fin 32)
  | or (e : Fin 192) (rd ra rb : Fin 32)
  | xor (e : Fin 192) (rd ra rb : Fin 32)
  | shl (e : Fin 192) (rd ra rb : Fin 32)
  | shr (e : Fin 192) (rd ra rb : Fin 32)
  | asr (e : Fin 192) (rd ra rb : Fin 32)
  | slt (e : Fin 192) (rd ra rb : Fin 32)
  | sltu (e : Fin 192) (rd ra rb : Fin 32)
  | min (e : Fin 192) (rd ra rb : Fin 32)
  | max (e : Fin 192) (rd ra rb : Fin 32)
  | abs (e : Fin 192) (rd ra : Fin 32)
  | neg (e : Fin 192) (rd ra : Fin 32)
  | adds (e : Fin 192) (rd ra rb : Fin 32)
  | subs (e : Fin 192) (rd ra rb : Fin 32)
  | mul (e : Fin 192) (rd ra rb : Fin 32)
  | mulh (e : Fin 192) (rd ra rb : Fin 32)
  | mulhu (e : Fin 192) (rd ra rb : Fin 32)
  | cmp (e : Fin 192) (ra rb : Fin 32)
  | exp (e : Fin 192) (rd ra : Fin 32)
  | expmin (e : Fin 192) (rd ra : Fin 32)
  | norm (e : Fin 192) (rd ra rb : Fin 32)
  | add2h (e : Fin 192) (rd ra rb : Fin 32)
  | sub2h (e : Fin 192) (rd ra rb : Fin 32)
  | hadd2h (e : Fin 192) (rd ra rb : Fin 32)
  | hsub2h (e : Fin 192) (rd ra rb : Fin 32)
  | bf2h (e : Fin 192) (rd ra rb : Fin 32)
  | hbf2h (e : Fin 192) (rd ra rb : Fin 32)
  | expq (e : Fin 192) (rd ra : Fin 32)
  | expminq (e : Fin 192) (rd ra : Fin 32)
  | addi (e : Fin 192) (rd ra : Fin 32) (imm : BitVec 16)
  | andi (e : Fin 192) (rd ra : Fin 32) (imm : BitVec 16)
  | ori (e : Fin 192) (rd ra : Fin 32) (imm : BitVec 16)
  | xori (e : Fin 192) (rd ra : Fin 32) (imm : BitVec 16)
  | slti (e : Fin 192) (rd ra : Fin 32) (imm : BitVec 16)
  | lui (e : Fin 192) (rd : Fin 32) (imm : BitVec 16)
  | shi (e : Fin 192) (rd ra : Fin 32) (imm : BitVec 16)
  | ld (e : Fin 192) (rd : Fin 32) (m : MemForm)
  | st (e : Fin 192) (rd : Fin 32) (m : MemForm)
  | mvp (e : Fin 192) (p : Fin 8) (ra : Fin 32)
  | mvg (e : Fin 192) (rd : Fin 32) (p : Fin 8)
  | mvm (e : Fin 192) (m : Fin 8) (ra : Fin 32)
  | mvmg (e : Fin 192) (rd : Fin 32) (m : Fin 8)
  | addp (e : Fin 192) (p : Fin 8) (imm : BitVec 16)
  | mvs (e : Fin 192) (idx : Fin 32) (ra : Fin 32)
  | mvsg (e : Fin 192) (rd : Fin 32) (idx : Fin 32)
  | br (e : Fin 192) (cond : Fin 16) (off : BitVec 22)
  | jmp (e : Fin 192) (off : BitVec 26)
  | call (e : Fin 192) (off : BitVec 26)
  | jr (e : Fin 192) (ra : Fin 32)
  | callr (e : Fin 192) (ra : Fin 32)
  | rete (e : Fin 192)
  | rep (e : Fin 192) (level : Fin 4) (endOff : BitVec 8) (gs : Fin 32)
  | repi (e : Fin 192) (level : Fin 4) (endOff : BitVec 8) (count : BitVec 16)
  | macw (e : Fin 192) (acd : Fin 4) (ra rb : Fin 32)
  | msuw (e : Fin 192) (acd : Fin 4) (ra rb : Fin 32)
  | mulw (e : Fin 192) (acd : Fin 4) (ra rb : Fin 32)
  | macuw (e : Fin 192) (acd : Fin 4) (ra rb : Fin 32)
  | macq (e : Fin 192) (acd : Fin 4) (ra rb : Fin 32)
  | msuq (e : Fin 192) (acd : Fin 4) (ra rb : Fin 32)
  | mulq (e : Fin 192) (acd : Fin 4) (ra rb : Fin 32)
  | cmul (e : Fin 192) (acd : Fin 4) (ra rb : Fin 32)
  | cmac (e : Fin 192) (acd : Fin 4) (ra rb : Fin 32)
  | cmulj (e : Fin 192) (acd : Fin 4) (ra rb : Fin 32)
  | cmacj (e : Fin 192) (acd : Fin 4) (ra rb : Fin 32)
  | clra (e : Fin 192) (acd : Fin 4)
  | lda (e : Fin 192) (acd : Fin 4) (ra : Fin 32)
  | ext (e : Fin 192) (rb : Fin 32) (acs : Fin 4) (sh : BitVec 6)
  | exth (e : Fin 192) (rb : Fin 32) (acs : Fin 4) (sh : BitVec 6)
  | ext2 (e : Fin 192) (rb : Fin 32) (acs : Fin 4) (sh : BitVec 6)
  | expa (e : Fin 192) (rb : Fin 32) (acs : Fin 4)
  | norma (e : Fin 192) (acd : Fin 4) (ra : Fin 32)
  | adda (e : Fin 192) (acd acs : Fin 4)
  | suba (e : Fin 192) (acd acs : Fin 4)
  | mvax (e : Fin 192) (rb : Fin 32) (acs : Fin 4) (part : BitVec 6)
  | sha (e : Fin 192) (acd : Fin 4) (sh : BitVec 6)
  | nop (e : Fin 192)
  | wait (e : Fin 192)
  | fenceSl (e : Fin 192)
  | fenceDma (e : Fin 192)
  | fenceI (e : Fin 192)
  | accessPrefixPair (e : Fin 192) (s1 s2 : Slot) (size : Fin 4) (sx : Bool) (w : ComputeWord)
  | dramPortRequest (port : Fin 16) (r : GReq)
  | dramIssue (port : Fin 16) (index : Nat) (decodes : List LineDecode) (evict : Nat)
  | dramRefresh (chan : Fin 8) (dimm : Fin 2)
  | mr4Poll (chan : Fin 8) (dimm : Fin 2) (code : BitVec 8)
  | dramRecentre (chan : Fin 8) (up : Bool)
  | dramTraining (results : List ChanTrain)
  | regionInitDone (region : Fin 8) (status : BitVec 4)
  | drcTrain (c : Cmd)
  | drcStatus (c : Cmd)
  | mekRegionSet (c : Cmd)
  | mekStatus (c : Cmd)
  | secKeyProvision (c : Cmd)
  | secKeyErase (c : Cmd)
  | secModeSet (c : Cmd)
  | secDebugUnlock (c : Cmd)
  | secDebugLock (c : Cmd)
  | secPolicySet (c : Cmd)
  | secStatus (c : Cmd)
  | aclWrite (c : Cmd)
  | aclRead (c : Cmd)
  | aclInvalidate (c : Cmd)
  | aclSweep
  | reconcileSweep
  | guestRequest (r : GReq)
  | gstFirewallSet (c : Cmd)
  | gstIsolate (c : Cmd)
  | pwrModeSet (c : Cmd)
  | pwrTrimSet (c : Cmd)
  | pwrPolicySet (c : Cmd)
  | pwrIslandSet (c : Cmd)
  | islandPowerUpDone (unit : Fin 17)
  | pwrReset (c : Cmd)
  | pwrStatus (c : Cmd)
  | clkSourceSet (c : Cmd)
  | clkOutSet (c : Cmd)
  | clkStatus (c : Cmd)
  | clkGateWrite (value : W32)
  | dbgFreezeSet (c : Cmd)
  | dbgEngControl (c : Cmd)
  | engineHalt (e : Fin 192) (cause : BitVec 2)
  | debugPortReset (cause : BitVec 2)
  | trstAsserted
  | extest
  | samplePreload (cells : List (Nat × Bool))
  | idcode
  | clamp
  | highz
  | extestPulse
  | extestTrain
  | dbgStatus
  | cmdData
  | groutAcc
  | dbgReset
  | bypass
  | statusWordCapture
  | cmdDataWord (update : Bool) (word : BitVec 33)
  | groutAccStart (word : BitVec 96)
  | twoWireFrame (command : Byte) (data : W32) (check : BitVec 16)
  | twoWireReset
  | evrRead (c : Cmd)
  | evrHead (c : Cmd)
  | evrClear (c : Cmd)
  | evrRateSet (c : Cmd)
  | recordProgram (pulses : Nat) (verified : Bool)
  | pageErase
  | pageExchanged
  | rateSummary (code : BitVec 16)
  | recordsLost
  | returnPrepare (c : Cmd)
  | returnUnlock (c : Cmd)
  | crossbarPinWrite (pin : Fin 96) (value : W32)
  | resetNReleased
  | thermalTripRelease
  | relayReplyReceived (reply : List Byte) (notification : Bool)
  | guestLimiterRefill
  | pcieConfigWrite (ctl : Fin 2) (w : CfgWrite)
deriving DecidableEq, Repr

end Sys2Proof
end

