-- ==== Sys2Proof/WellFormed.lean ====
section
/-!
DEFINITION. Which operands a command can have. Spatu packets are judged by the steward's own checks (02
R56), so every one of them is well formed; a grout request never leaves its 256-byte block (10 R341) and
carries one byte per byte of its length; indices lie in the ranges of their chapters.
-/
namespace Sys2Proof

/-- An endpoint's coordinates lie on the mesh (10 R335, R338). -/
def Endpoint.ok (e : Endpoint) : Bool := decide (e.x < 36) && decide (e.y < 16) && decide (e.ep < 4)

/-- A transfer of `len` + 1 bytes at `addr` stays in its 256-byte block, and a write carries its data
(10 R341, T10.4). -/
def transferOk (op : GOp) (addr : Addr) (len : BitVec 8) (data : List Byte) : Bool :=
  decide (addr.toNat % 256 + len.toNat < 256) &&
  match op with
  | .read => data.isEmpty
  | .write => decide (data.length = len.toNat + 1)

/-- A well-formed grout request. -/
def GReq.ok (r : GReq) : Bool := r.src.ok && transferOk r.op r.addr r.len r.data

/-- A well-formed command. -/
def Instr.wf : Instr → Bool
  | .registerWrite a _ => a.toNat % 4 = 0
  | .registerPairLowRead a => a.toNat % 4 = 0
  | .hubControlRequest r => r.ok
  | .copingWindowAccess r => r.ok
  | .engineWindowAccess r => r.ok
  | .dramPortRequest _ r => r.ok
  | .guestRequest r => r.ok
  | .groutRequest r => r.ok
  | .groutResponse r => r.req.ok
  | .hostWindowRequest r _ => r.ok
  | .hostWindowTimeout r => r.ok
  | .tunnelRequestArrived _ _ r => r.ok
  | .tunnelResponseArrived _ r => r.req.ok
  | .tunnelTimeout _ r => r.ok
  | .bar4Request _ op off len _ _ data _ => transferOk op (off.zeroExtend 48) len data
  | .iqRequest _ op addr len _ _ data _ => transferOk op addr len data
  | .deadTarget e _ => e.ok
  | .throttleSample rs => rs.all fun r => decide (r.1 < 400)
  | .samplePreload cells => cells.all fun c => decide (c.1 < 5408)
  | .adaptiveLoopStep (.island u) _ => decide (u < 17)
  | .adaptiveLoopStep (.dram _ rank) _ => decide (rank < 8)
  | _ => true

end Sys2Proof
end

