-- ==== Sys2Proof/Decode.lean ====
section
/-!
DEFINITION. The command a table word spells. spec/opcode_table.json gives none of its rows any bits, so no
word spells a command: a command reaches the part through its queue (assumption log 1).
-/
namespace Sys2Proof

/-- The rows of the opcode table carry no bit pattern. -/
def decodeTableWord (_nbits _w : Nat) : Option Instr := none

end Sys2Proof
end

