-- ==== Sys2Proof/Machine/SMap.lean ====
section
/-!
DEFINITION. The operations on sparse maps (`SMap`): the one place that reads or writes an array of
the state. A map is canonical (`SMap.Wf`) when its keys rise strictly and no entry equals the default
that an unlisted key reads as; `SMap.put` keeps that form (Laws/SMap.lean).
-/
namespace Sys2Proof

variable {α : Type}

/-- The value at key `k`; `d` where the key is unlisted. -/
def SMap.look (d : α) : SMap α → Nat → α
  | [], _ => d
  | (k', v) :: m, k => if k' = k then v else SMap.look d m k

/-- Removes key `k`. -/
def SMap.del : SMap α → Nat → SMap α
  | [], _ => []
  | (k', v) :: m, k => if k' = k then SMap.del m k else (k', v) :: SMap.del m k

/-- Lists key `k` with value `v`. -/
def SMap.ins : SMap α → Nat → α → SMap α
  | [], k, v => [(k, v)]
  | (k', v') :: m, k, v =>
    if k' = k then (k, v) :: m
    else if k < k' then (k, v) :: (k', v') :: m
    else (k', v') :: SMap.ins m k v

/-- Writes `v` at key `k`: the default removes the entry. -/
def SMap.put [DecidableEq α] (d : α) (m : SMap α) (k : Nat) (v : α) : SMap α :=
  if v = d then SMap.del m k else SMap.ins m k v

/-- Reads, applies `f` and writes back. -/
def SMap.upd [DecidableEq α] (d : α) (m : SMap α) (k : Nat) (f : α → α) : SMap α :=
  SMap.put d m k (f (SMap.look d m k))

/-- Applies `f` to every listed entry (the default must be a fixed point of `f` to mean every key). -/
def SMap.mapAll [DecidableEq α] (d : α) (m : SMap α) (f : Nat → α → α) : SMap α :=
  (m.map fun e => (e.1, f e.1 e.2)).filter fun e => decide (e.2 ≠ d)

/-- The canonical form: keys strictly rising, no entry equal to the default. -/
abbrev SMap.Wf (d : α) (m : SMap α) : Prop :=
  m.Pairwise (fun a b => a.1 < b.1) ∧ ∀ e ∈ m, e.2 ≠ d

/-- The `len` values from key `k` on. -/
def SMap.run (d : α) (m : SMap α) (k len : Nat) : List α :=
  (List.range len).map fun i => SMap.look d m (k + i)

/-- Writes the list `vs` from key `k` on. -/
def SMap.putRun [DecidableEq α] (d : α) : SMap α → Nat → List α → SMap α
  | m, _, [] => m
  | m, k, v :: vs => SMap.putRun d (SMap.put d m k v) (k + 1) vs

end Sys2Proof
end

