-- ==== Sys2Proof/Machine/Bits.lean ====
section
/-!
DEFINITION. Bit fields, byte order and checked list access. Multi-byte values are little-endian
(00_scope.md R6); a bit range [msb:lsb] is written `bitsAt v lsb width`.
-/
namespace Sys2Proof.Machine

/-- The `width` bits of `v` from bit `lsb` on, as a number. -/
def bitsAt (v lsb width : Nat) : Nat := (v >>> lsb) % 2 ^ width

/-- Bit `i` of `v`. -/
def bitAt (v i : Nat) : Bool := v.testBit i

/-- The number a little-endian byte list holds (R6). -/
def leNat : List Byte → Nat
  | [] => 0
  | b :: bs => b.toNat + 256 * leNat bs

/-- The `n` low bytes of `v`, least significant first (R6). -/
def leBytes : Nat → Nat → List Byte
  | 0, _ => []
  | n + 1, v => BitVec.ofNat 8 v :: leBytes n (v / 256)

/-- The `n` low bytes of `v`, most significant first. -/
def beBytes (n v : Nat) : List Byte := (leBytes n v).reverse

/-- `len` bytes from offset `off`; bytes past the end read as 0. -/
def slice (bs : List Byte) (off len : Nat) : List Byte :=
  let t := (bs.drop off).take len
  t ++ List.replicate (len - t.length) 0

/-- The little-endian field of `len` bytes at offset `off` of a parameter block. -/
def fieldAt (bs : List Byte) (off len : Nat) : Nat := leNat (slice bs off len)

/-- All bytes of the range are 0: the reserved bytes of a card (02 R57). -/
def zeroAt (bs : List Byte) (off len : Nat) : Bool := (slice bs off len).all (· == 0)

/-- Pads with zero bytes, or cuts, to `n` bytes. -/
def padTo (n : Nat) (bs : List Byte) : List Byte := slice bs 0 n

/-- The bits of a Bool list as a number, first element bit 0. -/
def bitsNat : List Bool → Nat
  | [] => 0
  | b :: bs => (if b then 1 else 0) + 2 * bitsNat bs

/-- 1 or 0. -/
def b2n (b : Bool) : Nat := if b then 1 else 0

/-- A saturating addition on a counter of `w` bits. -/
def satAdd {w : Nat} (a : BitVec w) (n : Nat) : BitVec w :=
  BitVec.ofNat w (min (a.toNat + n) (2 ^ w - 1))

/-- Sets or clears bit `i`. -/
def setBit {w : Nat} (v : BitVec w) (i : Nat) (b : Bool) : BitVec w :=
  if b then v ||| BitVec.ofNat w (2 ^ i) else v &&& ~~~ BitVec.ofNat w (2 ^ i)

/-- The set bits of `v` below `n`, rising. -/
def bitList (v n : Nat) : List Nat := (List.range n).filter fun i => v.testBit i

/-- The number of set bits among the low `n`. -/
def popCount (v n : Nat) : Nat := (bitList v n).length

/-- A two's-complement integer as `w` bits. -/
def ofInt (w : Nat) (i : Int) : BitVec w := BitVec.ofInt w i

/-- Element `i` of a list, or `d`. -/
def nth {α : Type} (d : α) (l : List α) (i : Nat) : α := (l[i]?).getD d

/-- Replaces the elements from index `i` on by those of `new`, within the length of `l`. -/
def splice {α : Type} (l : List α) (i : Nat) (new : List α) : List α :=
  l.take i ++ (new.take (l.length - i)) ++ l.drop (i + new.length)

/-- Byte-wise exclusive or of two lists of one length. -/
def xorBytes (a b : List Byte) : List Byte := List.zipWith (· ^^^ ·) a b

/-- Splits a list into pieces of `n` (fuel: the list's length). -/
def chunksOf {α : Type} (n : Nat) : Nat → List α → List (List α)
  | 0, _ => []
  | _ + 1, [] => []
  | f + 1, l => l.take n :: chunksOf n f (l.drop n)

/-- Rounds up to a multiple of `n`. -/
def roundUp (n v : Nat) : Nat := (v + n - 1) / n * n

end Sys2Proof.Machine
end

