-- ==== Sys2Proof/Machine/Crypto.lean ====
section
/-!
DEFINITION. The published algorithms the spec names: AES-256 and AES-CMAC (02 R47), AES-KW unwrapping
(14 R473), AES-GCM (06 R186, 07 R233), SHA-256 (06 R188) and the SP 800-108 counter-mode KDF (14
R477). PRESUMED (assumption log 4): the algorithms' own definitions are taken from the standards.
A block or a key is its byte list, in the standard's order.
-/
namespace Sys2Proof.Machine.Crypto
open Sys2Proof Sys2Proof.Machine

/-! ### AES (FIPS 197) -/

/-- Multiplication by x in GF(2^8) modulo x^8 + x^4 + x^3 + x + 1. -/
def xtime (b : Byte) : Byte := (b <<< 1) ^^^ (if b.msb then 0x1B else 0)

/-- Multiplication in GF(2^8): `n` bits of `b` remain. -/
def gmulGo : Nat → Byte → Byte → Byte
  | 0, _, _ => 0
  | n + 1, a, b => (if b.getLsbD 0 then a else 0) ^^^ gmulGo n (xtime a) (b >>> 1)

/-- Multiplication in GF(2^8). -/
def gmul (a b : Byte) : Byte := gmulGo 8 a b

/-- The multiplicative inverse (0 for 0), as the 254th power. -/
def ginv (a : Byte) : Byte :=
  let a2 := gmul a a
  let a4 := gmul a2 a2
  let a8 := gmul a4 a4
  let a16 := gmul a8 a8
  let a32 := gmul a16 a16
  let a64 := gmul a32 a32
  let a128 := gmul a64 a64
  gmul a128 (gmul a64 (gmul a32 (gmul a16 (gmul a8 (gmul a4 a2)))))

/-- The S-box. -/
def sbox (a : Byte) : Byte :=
  let b := ginv a
  b ^^^ b.rotateLeft 1 ^^^ b.rotateLeft 2 ^^^ b.rotateLeft 3 ^^^ b.rotateLeft 4 ^^^ 0x63

/-- The inverse S-box. -/
def invSbox (a : Byte) : Byte :=
  ginv (a.rotateLeft 1 ^^^ a.rotateLeft 3 ^^^ a.rotateLeft 6 ^^^ 0x05)

/-- Words of the AES-256 key schedule still to make (newest first, with their count). -/
def expandGo : Nat → Nat → Byte → List (List Byte) → List (List Byte)
  | 0, _, _, ws => ws
  | n + 1, i, rcon, ws =>
    let t := ws.headD []
    let w8 := nth [] ws 7
    if i % 8 = 0 then
      let t' := xorBytes ((splice t 0 (t.drop 1 ++ t.take 1)).map sbox) [rcon, 0, 0, 0]
      expandGo n (i + 1) (xtime rcon) (xorBytes w8 t' :: ws)
    else
      let t' := if i % 8 = 4 then t.map sbox else t
      expandGo n (i + 1) rcon (xorBytes w8 t' :: ws)

/-- The 15 round keys of AES-256, 16 bytes each. -/
def roundKeys (key : List Byte) : List (List Byte) :=
  let w0 := (chunksOf 4 8 (padTo 32 key)).reverse
  chunksOf 16 15 ((expandGo 52 8 0x01 w0).reverse.flatten)

/-- ShiftRows: byte i of the result comes from row i mod 4, shifted. -/
def shiftRows (b : List Byte) : List Byte :=
  (List.range 16).map fun i => nth 0 b ((i + 4 * (i % 4)) % 16)

/-- The inverse of ShiftRows. -/
def invShiftRows (b : List Byte) : List Byte :=
  (List.range 16).map fun i => nth 0 b ((i + 16 - 4 * (i % 4)) % 16)

/-- One column times the circulant matrix of first row `m`. -/
def mixCol (m c : List Byte) : List Byte :=
  (List.range 4).map fun r =>
    (List.range 4).foldl (fun a j => a ^^^ gmul (nth 0 m ((j + 4 - r) % 4)) (nth 0 c j)) 0

/-- MixColumns with the matrix of first row `m`. -/
def mixColumns (m b : List Byte) : List Byte := ((chunksOf 4 4 b).map (mixCol m)).flatten

/-- The middle and last rounds of encryption. -/
def encRounds : List (List Byte) → List Byte → List Byte
  | [], b => b
  | [k], b => xorBytes (shiftRows (b.map sbox)) k
  | k :: ks, b => encRounds ks (xorBytes (mixColumns [2, 3, 1, 1] (shiftRows (b.map sbox))) k)

/-- AES-256 encryption of one block. -/
def encrypt (key b : List Byte) : List Byte :=
  match roundKeys key with
  | [] => b
  | k :: ks => encRounds ks (xorBytes b k)

/-- The middle and last rounds of decryption. -/
def decRounds : List (List Byte) → List Byte → List Byte
  | [], b => b
  | [k], b => xorBytes ((invShiftRows b).map invSbox) k
  | k :: ks, b => decRounds ks (mixColumns [14, 11, 13, 9] (xorBytes ((invShiftRows b).map invSbox) k))

/-- AES-256 decryption of one block. -/
def decrypt (key b : List Byte) : List Byte :=
  match (roundKeys key).reverse with
  | [] => b
  | k :: ks => decRounds ks (xorBytes b k)

/-! ### AES-CMAC (SP 800-38B) -/

/-- Doubling in GF(2^128), most significant bit first. -/
def dbl (b : List Byte) : List Byte :=
  let v := leNat b.reverse
  let v' := (2 * v) % 2 ^ 128
  beBytes 16 (if v.testBit 127 then v' ^^^ 0x87 else v')

/-- The CBC chain over full blocks. -/
def cbcMac (key : List Byte) (blocks : List (List Byte)) : List Byte :=
  blocks.foldl (fun x m => encrypt key (xorBytes x m)) (List.replicate 16 0)

/-- AES-256-CMAC of a message. -/
def cmac (key msg : List Byte) : List Byte :=
  let k1 := dbl (encrypt key (List.replicate 16 0))
  let k2 := dbl k1
  let n := if msg.length = 0 then 1 else (msg.length + 15) / 16
  let body := msg.take (16 * (n - 1))
  let last := msg.drop (16 * (n - 1))
  let lastBlock :=
    if last.length = 16 then xorBytes last k1 else xorBytes (padTo 16 (last ++ [0x80])) k2
  cbcMac key (chunksOf 16 n body ++ [lastBlock])

/-! ### AES-KW (SP 800-38F) -/

/-- The unwrapping steps from step `t` down to 1 over (A, R). -/
def kwUnwrapGo (key : List Byte) (n : Nat) : Nat → List Byte → List (List Byte) → List Byte × List (List Byte)
  | 0, a, r => (a, r)
  | t + 1, a, r =>
    let i := t % n
    let b := decrypt key (xorBytes a (beBytes 8 (t + 1)) ++ nth [] r i)
    kwUnwrapGo key n t (b.take 8) (r.set i (b.drop 8))

/-- AES-KW unwrapping: none where the integrity check fails. -/
def kwUnwrap (key c : List Byte) : Option (List Byte) :=
  let n := c.length / 8 - 1
  let (a, r) := kwUnwrapGo key n (6 * n) (c.take 8) (chunksOf 8 n (c.drop 8))
  if a = List.replicate 8 0xA6 then some r.flatten else none

/-- The wrapping steps upwards. -/
def kwWrapGo (key : List Byte) (n : Nat) : Nat → Nat → List Byte → List (List Byte) → List Byte
  | 0, _, a, r => a ++ r.flatten
  | f + 1, t, a, r =>
    let i := t % n
    let b := encrypt key (a ++ nth [] r i)
    kwWrapGo key n f (t + 1) (xorBytes (b.take 8) (beBytes 8 (t + 1))) (r.set i (b.drop 8))

/-- AES-KW wrapping. -/
def kwWrap (key p : List Byte) : List Byte :=
  let n := p.length / 8
  kwWrapGo key n (6 * n) 0 (List.replicate 8 0xA6) (chunksOf 8 n p)

/-! ### AES-GCM (SP 800-38D) -/

/-- Multiplication in GF(2^128) with GCM's reflected bits: `n` bits of `x` remain, top first. -/
def ghMulGo : Nat → Nat → Nat → Nat → Nat
  | 0, _, _, z => z
  | n + 1, x, v, z =>
    let z' := if x.testBit n then z ^^^ v else z
    let v' := if v.testBit 0 then (v / 2) ^^^ (0xE1 * 2 ^ 120) else v / 2
    ghMulGo n x v' z'

/-- GHASH over a byte list of full blocks. -/
def ghash (h : List Byte) (data : List Byte) : List Byte :=
  let hn := leNat h.reverse
  let y := (chunksOf 16 (data.length / 16) data).foldl
    (fun y b => ghMulGo 128 (y ^^^ leNat b.reverse) hn 0) 0
  beBytes 16 y

/-- GCTR: counter blocks from `ctr` on. -/
def gctr (key : List Byte) (iv : List Byte) : Nat → List (List Byte) → List Byte
  | _, [] => []
  | ctr, b :: bs => xorBytes b (encrypt key (iv ++ beBytes 4 ctr)) ++ gctr key iv (ctr + 1) bs

/-- Pads with zeros to whole blocks. -/
def pad16 (b : List Byte) : List Byte := padTo (roundUp 16 b.length) b

/-- The GCM tag of a ciphertext under a 96-bit IV. -/
def gcmTag (key iv aad c : List Byte) : List Byte :=
  let h := encrypt key (List.replicate 16 0)
  let s := ghash h (pad16 aad ++ pad16 c ++ beBytes 8 (8 * aad.length) ++ beBytes 8 (8 * c.length))
  xorBytes s (encrypt key (iv ++ beBytes 4 1))

/-- GCM counter-mode transformation of the data under a 96-bit IV (encryption and decryption alike). -/
def gcmCrypt (key iv p : List Byte) : List Byte :=
  gctr key iv 2 (chunksOf 16 (p.length + 1) p)

/-! ### SHA-256 (FIPS 180-4) -/

/-- The first 64 primes, from which the standard takes its constants. -/
def primes : List Nat :=
  (List.range 312).filter fun p => 2 ≤ p && ((List.range p).all fun d => d < 2 || p % d != 0)

/-- The largest r with r^k at most v, by bisection over `n` bits. -/
def rootGo (k v : Nat) : Nat → Nat → Nat
  | 0, r => r
  | n + 1, r => let r' := r + 2 ^ n; rootGo k v n (if r' ^ k ≤ v then r' else r)

/-- The first 32 bits of the fractional part of the k-th root of p. -/
def rootFrac (k p : Nat) : W32 := BitVec.ofNat 32 (rootGo k (p * 2 ^ (32 * k)) 40 0)

/-- The round constants. -/
def shaK : List W32 := primes.map (rootFrac 3)

/-- The initial hash value. -/
def shaH0 : List W32 := (primes.take 8).map (rootFrac 2)

/-- The message schedule, newest first. -/
def shaSched : Nat → List W32 → List W32
  | 0, ws => ws
  | n + 1, ws =>
    let w2 := nth 0 ws 1
    let w15 := nth 0 ws 14
    let s0 := w15.rotateRight 7 ^^^ w15.rotateRight 18 ^^^ (w15 >>> 3)
    let s1 := w2.rotateRight 17 ^^^ w2.rotateRight 19 ^^^ (w2 >>> 10)
    shaSched n ((nth 0 ws 15 + s0 + nth 0 ws 6 + s1) :: ws)

/-- One round on the eight working variables. -/
def shaRound (st : List W32) (kw : W32) : List W32 :=
  match st with
  | [a, b, c, d, e, f, g, h] =>
    let s1 := e.rotateRight 6 ^^^ e.rotateRight 11 ^^^ e.rotateRight 25
    let t1 := h + s1 + ((e &&& f) ^^^ (~~~e &&& g)) + kw
    let s0 := a.rotateRight 2 ^^^ a.rotateRight 13 ^^^ a.rotateRight 22
    [t1 + s0 + ((a &&& b) ^^^ (a &&& c) ^^^ (b &&& c)), a, b, c, d + t1, e, f, g]
  | _ => st

/-- One 64-byte block. -/
def shaBlock (k h : List W32) (blk : List Byte) : List W32 :=
  let w0 := (chunksOf 4 16 blk).map fun b => BitVec.ofNat 32 (leNat b.reverse)
  let ws := (shaSched 48 w0.reverse).reverse
  List.zipWith (· + ·) h ((List.zipWith (· + ·) k ws).foldl shaRound h)

/-- SHA-256 of a byte list. -/
def sha256 (m : List Byte) : List Byte :=
  let padded := padTo (roundUp 64 (m.length + 9) - 8) (m ++ [0x80]) ++ beBytes 8 (8 * m.length)
  let k := shaK
  let h := (chunksOf 64 (padded.length / 64) padded).foldl (shaBlock k) shaH0
  (h.map fun w => beBytes 4 w.toNat).flatten

/-! ### The KDF of 14 R477 -/

/-- Output block `i` of the KDF of R477 under KD. -/
def kdfBlock (kd partNonce hostNonce : List Byte) (i : Nat) : List Byte :=
  let label : List Byte := [0x43, 0x41, 0x50, 0x54, 0x55, 0x52, 0x45, 0x00]
  cmac kd (beBytes 4 i ++ label ++ partNonce ++ hostNonce ++ beBytes 4 384)

/-- The capture key of R477: blocks 1 and 2. -/
def captureKey (kd pn hn : List Byte) : List Byte := kdfBlock kd pn hn 1 ++ kdfBlock kd pn hn 2

/-- The key_id of R477: bytes 0 to 7 of block 3. -/
def keyId (kd pn hn : List Byte) : List Byte := (kdfBlock kd pn hn 3).take 8

/-- CRC-16 as 09 R306 gives it: bit `n - 1` first of each value, polynomial `poly`, from `crc`. -/
def crc16Go (poly : BitVec 16) : BitVec 16 → List Bool → BitVec 16
  | crc, [] => crc
  | crc, b :: bs =>
    let x := crc.msb != b
    crc16Go poly ((crc <<< 1) ^^^ (if x then poly else 0)) bs

/-- CRC-16 of a byte string (09 R306): each byte most significant bit first, polynomial 0x1021 from 0xFFFF. -/
def crc16 (bs : List Byte) : BitVec 16 :=
  crc16Go 0x1021 0xFFFF ((bs.map fun b => (List.range 8).map fun i => b.getLsbD (7 - i)).flatten)

/-- CRC-64 over bits, polynomial `poly`, from `crc`. -/
def crc64Go (poly : BitVec 64) : BitVec 64 → List Bool → BitVec 64
  | crc, [] => crc
  | crc, b :: bs =>
    let x := crc.msb != b
    crc64Go poly ((crc <<< 1) ^^^ (if x then poly else 0)) bs

/-- CRC-64 of a byte string by the ECMA-182 polynomial (08 R276); from 0, unreflected and with no final exclusive or, as that
standard has it (PRESUMED, assumption log 82). -/
def crc64 (bs : List Byte) : BitVec 64 :=
  crc64Go 0x42F0E1EBA9EA3693 0 ((bs.map fun b => (List.range 8).map fun i => b.getLsbD (7 - i)).flatten)

end Sys2Proof.Machine.Crypto
end

