-- ==== Sys2Proof/Machine/LineCode.lean ====
section
/-!
DEFINITION. What lanes send and read as line bits (09): the 8b/10b code of the bring-up level (R306), the 68-bit blocks of
the data level (R308), the levels of PAM4 (R310) and the PRBS patterns (R314, R315).
-/
namespace Sys2Proof.Machine

/-! ### 8b/10b (R306) -/

/-- The 6-bit codes of D.0 to D.31 for negative running disparity, bits a to i, a first. -/
def sixBits : List (BitVec 6) :=
  [0b100111, 0b011101, 0b101101, 0b110001, 0b110101, 0b101001, 0b011001, 0b111000] ++
  [0b111001, 0b100101, 0b010101, 0b110100, 0b001101, 0b101100, 0b011100, 0b010111] ++
  [0b011011, 0b100011, 0b010011, 0b110010, 0b001011, 0b101010, 0b011010, 0b111010] ++
  [0b110011, 0b100110, 0b010110, 0b110110, 0b001110, 0b101110, 0b011110, 0b101011]

/-- The 4-bit codes of .0 to .7 for negative running disparity, bits f to j, f first. -/
def fourBits : List (BitVec 4) := [0b1011, 0b1001, 0b0101, 0b1100, 0b1101, 0b1010, 0b0110, 0b1110]

/-- The 4-bit codes of K.28.0 to K.28.7 after the 6-bit code 001111. -/
def fourBitsK : List (BitVec 4) := [0b0100, 0b1001, 0b0101, 0b0011, 0b0010, 0b1010, 0b0110, 0b1000]

/-- A code that changes the running disparity; those that do not are the same for both, but for D.7 and .3. -/
def unbalanced {w : Nat} (c : BitVec w) : Bool := 2 * popCount c.toNat w != w

/-- The symbol of a data character; `rd` is true for positive running disparity. -/
def encodeData (rd : Bool) (v : Byte) : BitVec 10 :=
  let (x, y) := (v.toNat % 32, v.toNat / 32)
  let c := nth 0 sixBits x
  let six := if rd && (unbalanced c || x == 7) then ~~~c else c
  let rd' := rd != unbalanced c
  let alt := y == 7 && (if rd' then [11, 13, 14].contains x else [17, 18, 20].contains x)
  let d := if alt then 0b0111 else nth 0 fourBits y
  let four := if rd' && (unbalanced d || y == 3) then ~~~d else d
  six ++ four

/-- The symbol of a control character: K.28.y, and K.23.7, K.27.7, K.29.7 and K.30.7; none for any other value. -/
def encodeControl (rd : Bool) (v : Byte) : Option (BitVec 10) :=
  let (x, y) := (v.toNat % 32, v.toNat / 32)
  let c : Option (BitVec 10) :=
    if x = 28 then some ((0b001111 : BitVec 6) ++ nth 0 fourBitsK y)
    else if y = 7 && [23, 27, 29, 30].contains x then some (nth 0 sixBits x ++ (0b1000 : BitVec 4))
    else none
  c.map fun c => if rd then ~~~c else c

/-- The running disparity after a symbol. -/
def disparityAfter (rd : Bool) (c : BitVec 10) : Bool :=
  let n := popCount c.toNat 10
  if n = 5 then rd else decide (5 < n)

/-- K28.5. -/
def commaChar : Byte := 0xBC

/-- The characters that a symbol stands for under a running disparity: value and control flag. -/
def symbolChar (rd : Bool) (c : BitVec 10) : Option (Byte × Bool) :=
  match (List.range 256).find? fun v => encodeData rd (BitVec.ofNat 8 v) == c with
  | some v => some (BitVec.ofNat 8 v, false)
  | none =>
    match (List.range 256).find? fun v => encodeControl rd (BitVec.ofNat 8 v) == some c with
    | some v => some (BitVec.ofNat 8 v, true)
    | none => none

/-- A symbol read under a running disparity: the character, its control flag and the errors that it counts; a character of
the other disparity is a disparity error, any other symbol a code violation. -/
def decodeSymbol (rd : Bool) (c : BitVec 10) : Byte × Bool × Nat :=
  match symbolChar rd c with
  | some (v, k) => (v, k, 0)
  | none =>
    match symbolChar (!rd) c with
    | some (v, k) => (v, k, 1)
    | none => (0, false, 1)

/-- Symbols read in turn: the characters, the errors and the running disparity after them. -/
def decodeSymbols : Bool → List (BitVec 10) → List (Byte × Bool) × Nat × Bool
  | rd, [] => ([], 0, rd)
  | rd, c :: cs =>
    let (v, k, e) := decodeSymbol rd c
    let (vs, n, rd) := decodeSymbols (disparityAfter rd c) cs
    ((v, k) :: vs, e + n, rd)

/-- Characters sent in turn, the first of them K28.5 (T9.3): their symbols and the running disparity after them. -/
def encodeSet (rd : Bool) (chars : List Byte) : List (BitVec 10) × Bool :=
  match chars with
  | [] => ([], rd)
  | v :: vs =>
    let c := (encodeControl rd v).getD (encodeData rd v)
    vs.foldl (fun (acc : List (BitVec 10) × Bool) v =>
      let c := encodeData acc.2 v
      (acc.1 ++ [c], disparityAfter acc.2 c)) ([c], disparityAfter rd c)

/-! ### The data level (R308, R310) -/

/-- PAM4 rate codes (T9.2). -/
def pam4 (rate : Nat) : Bool := 12 ≤ rate

/-- The level of a pair of bits in PAM4, the first bit the more significant. -/
def pamLevel (first second : Bool) : BitVec 2 := if first then (if second then 2 else 3) else if second then 1 else 0

/-- The pair of bits of a level. -/
def pamBits (v : BitVec 2) : List Bool := if v = 0 then [false, false] else if v = 1 then [false, true] else if v = 2 then [true, true] else [true, false]

/-- Bits as PAM4 levels. -/
def pamLevels : List Bool → List (BitVec 2)
  | a :: b :: bs => pamLevel a b :: pamLevels bs
  | _ => []

/-- Bits as NRZ levels. -/
def nrzLevels (bs : List Bool) : List (BitVec 2) := bs.map fun b => if b then 1 else 0

/-- One bit through the self-synchronous scrambler x^58 + x^39 + 1: bit k of the state is the bit sent k + 1 bits ago. -/
def scrambleBit (st : BitVec 58) (b : Bool) : Bool := (b != st.getLsbD 38) != st.getLsbD 57

/-- The state after a bit on the line. -/
def scramblerNext (st : BitVec 58) (line : Bool) : BitVec 58 := setBit (st <<< 1) 0 line

/-- Payload bits scrambled, bit 0 first. -/
def scramble : BitVec 58 → List Bool → List Bool × BitVec 58
  | st, [] => ([], st)
  | st, b :: bs =>
    let o := scrambleBit st b
    let (os, st) := scramble (scramblerNext st o) bs
    (o :: os, st)

/-- Line bits descrambled. -/
def descramble : BitVec 58 → List Bool → List Bool × BitVec 58
  | st, [] => ([], st)
  | st, o :: os =>
    let b := scrambleBit st o
    let (bs, st) := descramble (scramblerNext st o) os
    (b :: bs, st)

/-- All of a list equal. -/
def allSame (bs : List Bool) : Bool := bs.all id || bs.all (!·)

/-- The two header bits, bit 0 first: 0b01 a data block, 0b10 a control block (T9.4). -/
def headerBits (control : Bool) : List Bool := if control then [false, true] else [true, false]

/-- A block of scrambled payload as line levels, with its slot or stuffing transition symbol (R308). -/
def blockLevels (pam : Bool) (head body : List Bool) : List (BitVec 2) :=
  if pam then
    let ls := pamLevels (head ++ body)
    let last := ls.getLast?.getD 0
    ls ++ [if last = 0 || last = 1 then 3 else 0]
  else if allSame (head.drop 1 ++ body.take 63) then
    let p := nth false body 62
    nrzLevels (head ++ body.take 63 ++ [!p, p] ++ body.drop 63)
  else
    let p := nth false body 63
    nrzLevels (head ++ body ++ [!p, p])

/-- The line levels of one 64-bit payload, and the scrambler after it. -/
def encodeBlock (pam control : Bool) (v : BitVec 64) (st : BitVec 58) : List (BitVec 2) × BitVec 58 :=
  let (body, st) := scramble st ((List.range 64).map v.getLsbD)
  (blockLevels pam (headerBits control) body, st)

/-- A received block without its slot: the two header bits and the 64 scrambled payload bits (R308). -/
def blockBits (pam : Bool) (ls : List (BitVec 2)) : List Bool × List Bool :=
  if pam then
    let bs := (ls.take 33).flatMap pamBits
    (bs.take 2, bs.drop 2)
  else
    let bs := ls.map (· != 0)
    (bs.take 2,
      if allSame ((bs.drop 1).take 64) then (bs.drop 2).take 63 ++ (bs.drop 67).take 1 else (bs.drop 2).take 64)

/-- A received block read: its header, its payload, and the descrambler after it. -/
def decodeBlock (pam : Bool) (ls : List (BitVec 2)) (st : BitVec 58) : BitVec 2 × BitVec 64 × BitVec 58 :=
  let (head, body) := blockBits pam ls
  let (bs, st) := descramble st body
  (BitVec.ofNat 2 (bitsNat head), BitVec.ofNat 64 (bitsNat bs), st)

/-! ### The bring-up set (T9.3) -/

/-- The 16 characters of a set: type 1 LID, 2 ACK, 3 RATE_CHANGE; lane and device; rate code and preset asked for; domain_id
and session. -/
def bringupChars (kind lane device rate preset domain session : Nat) : List Byte :=
  let body := leBytes 1 kind ++ leBytes 1 lane ++ leBytes 1 device ++ leBytes 1 rate ++ leBytes 1 preset ++ leBytes 4 domain ++
    leBytes 4 session
  commaChar :: body ++ leBytes 2 (Crypto.crc16 body).toNat

/-! ### PRBS (R314, R315) -/

/-- The exponents of a pattern's polynomial (T9.6). -/
def prbsTaps (pattern : Nat) : List Nat :=
  match pattern with
  | 0 => [7, 6] | 1 => [9, 5] | 2 => [13, 12, 2, 1] | 3 => [15, 14] | 4 => [23, 18] | _ => [31, 28]

/-- The next bit of a pattern after the bits of a register: bit k is the bit k + 1 bits ago. -/
def prbsNext (pattern : Nat) (r : BitVec 31) : Bool := (prbsTaps pattern).foldl (fun b k => b != r.getLsbD (k - 1)) false

end Sys2Proof.Machine
end

