-- ==== Sys2Proof/Config.lean ====
section
/-!
DEFINITION. What an implementation fixes and the spec leaves open: free values (opaque constants
with no body, of which nothing can be proved) and the functions that only the Grimanum device file
gives. Each is named in the assumption log.
-/
namespace Sys2Proof.Config

/-- A fresh free value: the step applies it to the counter `State.freeNo`, which it advances. Stands
for every value the spec leaves open (assumption log 3). -/
opaque free : Nat → BitVec 64

/-- A free string of random bytes: the nonce of R477, a random memory key of R443 (log 3). -/
opaque freeByte : Nat → Nat → Byte

/-- The contents of a DRAM byte that training left undefined (13 R431): applied to the number of the
training and the address (assumption log 12). -/
opaque dramByte : Nat → Nat → Byte

/-- The bank and the row of a DRAM line (13 R435): the controllers' address mapping is not published
(assumption log 13). -/
opaque dramBank : Nat → Nat

/-- As `dramBank`: the row. -/
opaque dramRow : Nat → Nat

/-- Where the device file puts the configuration fields (03 R77, 06 R182): the order of the bits of each of a course's
eight frames, as exchanges of pairs (log 10). -/
opaque frameOrder : List (Nat × Nat)

/-- One exchange of two bit positions of one frame of a course: a pair of two frames exchanges nothing, so that every
field lies in the frame that holds its element (06 R182, 07 R215). -/
def exchange (p : Nat × Nat) (x : Nat) : Nat :=
  if p.1 < 73728 ∧ p.2 < 73728 ∧ p.1 / 9216 = p.2 / 9216 then (if x = p.1 then p.2 else if x = p.2 then p.1 else x) else x

/-- Where field `f` of element `k` of a course starts among the element's bits. A logic element (below 256) holds the fields
of 03 T3.3 in order; a tile (256 to 271) its reset options (0 to 3), clock sources, gates and inversions (4 to 9), carry
selection and wide mode (10, 11), then the source of each of its 186 sinks (12 to 197) and of its 64 outputs (198 to 261);
then the slab (05 T5.1), the fabric port, the seam groups and the I/O cells (04 T4.9). -/
def fieldStart (k f : Nat) : Nat :=
  if k < 256 then [0, 64, 66, 67, 68, 69, 70, 72, 74, 76, 77, 78, 80, 82, 83, 84, 85].getD f (86 + f)
  else if k < 272 then
    if f < 12 then [0, 1, 2, 3, 4, 11, 18, 19, 20, 21, 22, 24].getD f 0
    else if f < 198 then 64 + 8 * (f - 12) else 1552 + 7 * (f - 198)
  else if k = 272 then [0, 2, 3, 6, 9, 11, 13, 14, 15, 22, 29, 30, 31, 32, 38, 44].getD f (46 + f)
  else if 300 ≤ k ∧ k < 500 then [0, 32, 38].getD f (70 + f)
  else if 500 ≤ k then [0, 3, 5, 7, 8, 10, 11, 12, 14, 21].getD f (23 + f)
  else 8 * f

/-- Where element `k` of a course starts among the 8 x 9,216 bits of the course's frames. Frame j holds the tiles 2 j and
2 j + 1 of the course (07 R215); the slab's and the port's fields lie in frame 0, a seam group's and an I/O cell's in the
frame of its number modulo 8. -/
def elemStart (k : Nat) : Nat :=
  if k < 256 then 4608 * (k / 16) + 96 * (k % 16)
  else if k < 272 then 4608 * (k - 256) + 1536
  else if k = 272 then 3536
  else if k < 300 then 3700
  else if k < 500 then 9216 * ((k - 300) % 8) + 8144 + (if (k - 300) / 16 < 6 then 0 else 72)
  else 9216 * ((k - 500) % 8) + 3800 + 32 * ((k - 500) / 8)

/-- The bit offset, inside the frames of its course, of bit `b` of field `f` of element `k`: distinct bits of the fields of
one course have distinct places, in an order inside each frame that nothing else is known of. -/
def fieldBit (k f b : Nat) : Nat := frameOrder.foldr exchange (elemStart k + fieldStart k f + b)

/-- What the image connects to a sink of a course's junction, from the listed bytes of the course's eight frames (04 R106 to
R108): the encoding of the junctions is the device file's (log 10). None: nothing. -/
opaque junction : List (Nat × Byte) → FabOut → Option FabSrc

/-- The source of a global line, from the hub clock frames (04 R125, 06 R182) (log 10). -/
opaque lineSource : List (Nat × Byte) → Fin 64 → Option LineSrc

/-- The source of a regional line of a band, from the brick-wide frames (04 R127, 06 R182) (log 10). -/
opaque bandSource : List (Nat × Byte) → (band : Fin 8) → (line : Fin 24) → Option BandSrc

/-- The course whose junction drives a brick's global buffer, from the brick-wide frames (log 10). -/
opaque bufferCourse : List (Nat × Byte) → (buf : Fin 8) → Fin 160 × Fin 160

/-- The course of its band whose junction drives a regional buffer, from the brick-wide frames (log 10). -/
opaque bandCourse : List (Nat × Byte) → (band : Fin 8) → (line : Fin 24) → Fin 160 × Fin 20

/-- The course of an I/O cell: the package file's (04 R131) (log 10). -/
opaque ioCourse : Fin 32 → Fin 48 → Fin 160 × Fin 160

/-- A pin or a net that drives a global line toggles: it is the board's and the design's (log 10). -/
opaque toggles : List (Nat × Byte) → Fin 64 → Bool

/-- The codes of the control frames of the bond link (08 T8.3), by kind: NAK, HOLD, RESUME, LEAVE, domain operation, time
(log 82). -/
opaque ctrlCode : Nat → Byte

/-- The transmitter taps of presets P0 to P10 of the PCIe base specification (09 R311): pre-cursor and post-cursor as LNS_EQ
shows them (log 83). -/
opaque presetTaps : BitVec 4 → Byte × Byte

/-- The place in the boundary register of a cell, numbered in the order of 16 R541: the BSDL file's (log 10). -/
opaque boundaryPlace : Nat → Nat

/-- Oskurov's own key, held outside K0 to K3, which authenticates RETURN_UNLOCK (02 R52, 17 R576). -/
opaque makerKey : Nat → Byte

/-- The device key fused at manufacture, which wraps the key store (14 R472). -/
opaque deviceKey : Nat → Byte

/-- The die's own answer to an unreachable outside read: what a fabric port, a PCIe host or a peer
part returns to a read of the steward's (log 11): status and byte, by read number and byte index. -/
opaque remoteStatus : Nat → BitVec 4

/-- As `remoteStatus`: the data bytes. -/
opaque remoteByte : Nat → Nat → Byte

/-- The centre of the data eye that seam training number `t` measures on a group (04 R120) (log 3). -/
opaque eyeCentre : (t group : Nat) → BitVec 5

/-- The lowest and the highest centre that training number `t` measured over the active groups (log 3). -/
opaque eyeLow : (t : Nat) → BitVec 5

/-- As `eyeLow`: the highest. -/
opaque eyeHigh : (t : Nat) → BitVec 5

/-- The lane that HSUB.2H or HBF.2H writes where the rounded half of 65,535 is 32,768, which "never
overflows" leaves without a value (12 T12.9): applied to sr.rnd (log 31). -/
opaque halfOverflow : Nat → BitVec 16

/-- What NORM.A writes for a shift outside -72 to 71, to which R416 gives no result (log 31). -/
opaque normOut : BitVec 72 → BitVec 32 → BitVec 72

end Sys2Proof.Config
end

