-- ==== Sys2Proof/Machine/State.lean ====
section
/-!
DEFINITION. The state of the ML3-52: every register, buffer, counter, mode and pin the spec names,
as plain data, grouped by the chapter of spec/ that owns it, and the queue of waiting commands.
Arrays are sparse canonical maps (`SMap`): an unlisted key reads as the default its accessor names.
-/
namespace Sys2Proof.Machine

/-- Why the machine stops. -/
inductive Fault where
  /-- Raised by RETURN_UNLOCK once it has passed every check: the part enters Oskurov's private test
  modes, whose effects "are Oskurov's own and are not published" (17 R576). Safe: the model stops. -/
  | makerMode
deriving DecidableEq, Repr

/-- Why a command has no meaning. -/
inductive Refusal where
  /-- An arm of `exec` that has no meaning yet. Safe. -/
  | notModelled (mnemonic : String)
  /-- Raised by `step` on a command whose operands `Instr.wf` refuses (a grout request that leaves its
  256-byte block, data shorter than its length): no such command exists. Safe. -/
  | illFormed
deriving DecidableEq, Repr

/-! ### Fuses, ROM, wiring and fitted parts -/

/-- What is fitted to one DRAM channel (13 R428): DIMM count, type, device width, whether the SPD
declares RFM required. -/
structure Dimms where
  count : Nat := 0
  mrdimm : Bool := false
  x8 : Bool := false
  rfm : Bool := false
deriving DecidableEq, Repr

/-- The part as made and wired: fuses and ROM (01 T1.7, T1.8), interposer straps, the physical faults
of the seams, the board's pins and what the board fits. No command of the part changes these. -/
structure Part where
  /-- ML3-52G (01 R16, T1.7 variant) -/
  guestVariant : Bool
  speedGrade : Byte
  stepping : Byte
  fwVersion : W32
  uid : W64
  /-- a die's own stepping where it differs from `stepping` (01 T1.15), by die index -/
  dieStepping : SMap Byte
  /-- strap words wired otherwise than 01 T1.3 gives, by die index (0-7 B, 8-15 C, 16-23 L, 24 H) -/
  strapWiring : SMap Byte
  /-- the guest interface completes its training (01 R29) -/
  guestTrains : Bool
  /-- faulty seam wires by group number: bit 32 the spare (04 R115 to R118) -/
  seamFaults : SMap (BitVec 33)
  /-- CFG_BOOT1, CFG_BOOT0 (06 R196), CLK_FSEL (15 R513), DBG_SEL (16 R536) -/
  cfgBoot : BitVec 2
  clkFsel : BitVec 3
  dbgSel : Bool
  /-- the DIMMs by channel (13 R428) -/
  dimms : SMap Dimms
  /-- the boot devices' bytes, device d at d * 2^32 (06 R196); unlisted bytes read erased -/
  ospi : SMap Byte
  /-- the 256-byte pieces of the boot devices whose reads fail (06 R197), by byte number / 256 -/
  ospiFail : SMap Bool
deriving DecidableEq, Repr

/-! ### 01 Dies -/

/-- The states of 01 T1.16. -/
inductive DieState where
  | absent | reset | running | fenced | off | isolated
deriving DecidableEq, Repr

/-- A die's entry of the steward's unit-state table (01 T1.15, T1.16). `held`: held in reset under
R17 to R19 or R29. -/
structure Die where
  state : DieState := .running
  held : Bool := false
  invalid : Bool := false
  duplicate : Bool := false
  partner : Bool := false
  trainFailed : Bool := false
deriving DecidableEq, Repr

/-- Identity and die state (01). -/
structure Dev where
  /-- the sampled strap bytes of B0-7, C0-7, L0-7, H (01 R14, R15) -/
  strap : List Byte
  /-- die records by die index: 0-7 B, 8-15 C, 16-23 L, 24 H, 25 G -/
  dies : SMap Die
  /-- the hub's role: the guest gate enabled (01 R19, R28) -/
  role : Bool
  /-- the hub read a wrong word: DEV_STRAP_FAULT[24] (01 R19) -/
  hubFault : Bool
deriving DecidableEq, Repr

/-! ### 02 Command intake -/

/-- A reply or a notification waiting for, or in, a reply space (02 R48, R63). -/
structure Reply where
  tag : BitVec 16
  status : BitVec 16
  opcode : BitVec 16
  data : List Byte
  notification : Bool
  logRo : Bool
  /-- the counter and the tag of the reply trailer (02 R49) -/
  trailer : Option (W64 × W64)
deriving DecidableEq, Repr

/-- The reply side of one port and source (02 R42, T2.3): the reply in the space, those waiting, and
whether a submitted packet is unanswered. -/
structure ReplySpace where
  current : Option Reply := none
  waiting : List Reply := []
  reqBusy : Bool := false
  /-- the device time before which a packet of this source loses without arbitration (02 R66) -/
  retryUntil : Nat := 0
deriving DecidableEq, Repr

/-- One command port (02 T2.13, R43, R55, R66). -/
structure Port where
  requests : List Packet := []
  lockedOut : Bool := false
  lockoutAt : Nat := 0
  truncated : Bool := false
  failRun : Nat := 0
  losses : Nat := 0
  retry : Nat := 0
  /-- one more than the intake cycle of the last loss: a port counts one loss in a cycle (02 R66) -/
  lastLoss : Nat := 0
  /-- the bytes of an incomplete serial packet (02 R43) -/
  partialBytes : List Byte := []
deriving DecidableEq, Repr

/-- A locked sequence (02 R68). -/
structure Lock where
  port : Fin 8
  source : BitVec 16
  opcode : BitVec 16
  start : Nat
deriving DecidableEq, Repr

/-- What a background command has still to do when BACKGROUND_COMPLETION comes (02 R62). `other`:
another command of the table finishes it. -/
inductive Work where
  | other
  | cfgFetch (addr : W64) (length : Nat)
  | seamRepair (seam dir first count : Nat)
  | engLoad (params : List Byte)
  /-- the engines of a mask are to reach STOPPED (11 R402) or HALTED (16 R552) -/
  | engStop (mask : BitVec 192)
  | engHalt (mask : BitVec 192)
  | evrClear (port : Byte) (source : BitVec 16) (slot : Byte)
  /-- the relayed device and the inner tag whose notification completes it (08 R286) -/
  | relay (device : Byte) (tag : BitVec 16)
  /-- the part's own share is done; the other members have still to report (07 R247) -/
  | domain (status : BitVec 16) (data : List Byte)
deriving DecidableEq, Repr

/-- A completion-table entry (02 R61, R62). -/
structure Completion where
  port : Fin 8
  source : BitVec 16
  tag : BitVec 16
  opcode : BitVec 16
  notify : Bool
  /-- the counter consumed and the key that checked the request (02 R49, R63) -/
  auth : Option (W64 × List Byte)
  done : Bool
  status : BitVec 16
  progress : Byte
  data : List Byte
  /-- device time of completion (02 R62) -/
  doneAt : Nat
  work : Work
deriving DecidableEq, Repr

/-- A packet that holds the intake until its awaited state is reached (02 R60). -/
structure Held where
  packet : Packet
  auth : Option (W64 × List Byte)
  /-- its port has lost its link: the reply is discarded (09 R322) -/
  mute : Bool := false
  /-- when it answers ACCEPTED: 2 ms from its grant (R60) -/
  deadline : Option Nat := none
  /-- what a command waits for whose card never answers ACCEPTED and that so has no completion entry (R61) -/
  work : Work := .other
deriving DecidableEq, Repr

/-- The command intake (02). -/
structure Intake where
  opened : Bool
  ports : SMap Port
  /-- reply spaces by port * 65536 + source -/
  replies : SMap ReplySpace
  /-- the last source granted on ports 5 and 6 (02 R39) and the last port granted (02 R64) -/
  last5 : Nat
  last6 : Nat
  lastPort : Nat
  rankShadow : W32
  rankActive : W32
  rankPending : Option W32
  lock : Option Lock
  busy : Option Held
  table : List Completion
  /-- stored counters by key slot: non-volatile (02 R53) -/
  counters : SMap W64
  /-- CMD_MB_REQ of controller c at c * 131072 (02 T2.2) -/
  mbReq : SMap Byte
  /-- bytes written to it from offset 0 since the last submission, by controller (assumption log 69) -/
  mbExtent : SMap Nat
  /-- message-signalled interrupts sent, by controller (02 R42) -/
  msi : SMap Nat
deriving DecidableEq, Repr

/-! ### 03, 04 Fabric -/

/-- An LE's flip-flops, their shadows, its 64 storage bits and their shadow (03 T3.6, R78; 07 R217),
each held as its exclusive or with the configured value (ffN_init, lut_tt): an unlisted LE holds what
its configuration gives it. -/
structure Le where
  ff0 : Bool := false
  ff1 : Bool := false
  sh0 : Bool := false
  sh1 : Bool := false
  mem : W64 := 0
  memShadow : W64 := 0
deriving DecidableEq, Repr

/-- A seam wire group (04 R116 to R122, T4.16). -/
structure Group where
  /-- steps of the adaptive loop from the eye centre that training measured (04 R120, R121) -/
  move : Int := 0
  defects : W32 := 0
  spareUsed : Bool := false
  spareFaulty : Bool := false
  repaired : BitVec 5 := 0
  /-- event 0x4104 has been logged for it (04 R122) -/
  frozenSeen : Bool := false
deriving DecidableEq, Repr

/-- A beat waiting in a fabric-port FIFO towards the fabric (04 T4.11). -/
structure TqBeat where
  req : GReq
  tag : BitVec 6
deriving DecidableEq, Repr

/-- A fabric port (04 R138 to R144, T4.17). -/
structure FabPort where
  /-- requests in the tq FIFO of 16 beats, oldest first, those that wait in grout for its space (04 R140), and those
  delivered to the fabric and unanswered -/
  tq : List GReq := []
  door : List GReq := []
  delivered : List TqBeat := []
  /-- responses in the ir FIFO with the iq tag each answers (04 T4.12) -/
  ir : List (BitVec 6 × GResp) := []
  /-- initiator requests outstanding (04 R141) -/
  iq : List (BitVec 6 × GReq) := []
  dropped : Bool := false
deriving DecidableEq, Repr

/-- The storage that the pins of one instant show: the LEs and the seam registers as they stood before the first command of
the instant (03 R84: flip-flops of one edge load together). -/
structure EdgeView where
  les : SMap Le := []
  seamRegs : SMap W32 := []
deriving DecidableEq, Repr

/-- The registers of an I/O cell (04 R134 to R136): output data, output enable and input data. -/
structure IoReg where
  out : Byte := 0
  oe : Bool := false
  inp : Byte := 0
deriving DecidableEq, Repr

/-- The fabric (03, 04): LE state, seam groups, seam registers, I/O banks and fabric ports. -/
structure Fabric where
  les : SMap Le
  /-- the signals at 1 that arrive from outside, as the last fabric event gave them: of those whose level no other state
  gives -/
  high : List FabIn
  /-- the storage before the first command of the current instant -/
  before : EdgeView
  /-- the latch of each gated tile clock, by tile and clock (04 R129) -/
  gates : SMap Bool
  /-- the registers of the I/O cells by 48 bank + pin (04 R134) -/
  io : SMap IoReg
  groups : SMap Group
  /-- seam registers by group number, a bit per wire, and their shadows (04 R112) -/
  seamRegs : SMap W32
  seamShadow : SMap W32
  grpSel : W32
  /-- global lines whose configured source toggles (04 R125) -/
  clkLive : W64
  /-- device time of a line's last edge, plus 1, where it has stopped or is a slow beat line (04 R145) -/
  edgeAt : SMap Nat
  vioPresent : W32
  vioLost : W32
  ports : SMap FabPort
  /-- FAB_SEAM_REPAIR is running (04 R146) -/
  repairing : Bool
  /-- seam trainings since power-up, and the training each seam last took: the number `Config.eyeCentre` takes -/
  trainings : Nat
  seamTrain : SMap Nat
deriving DecidableEq, Repr

/-! ### 05 Coping memory -/

/-- What a stored byte's check bits say (05 R168, R169; 11 R374). -/
inductive Chk where
  | clean
  | oneBit (bit : Fin 13)
  | bad
  | poison
deriving DecidableEq, Repr

/-- A byte of coping or engine memory with its check state. -/
structure MByte where
  data : Byte := 0
  chk : Chk := .clean
deriving DecidableEq, Repr

/-- The outputs of a slab user port and the reads on their way to them (05 R159): `pipe` holds, per
port edge still to come, what that edge will deliver. `phase` is the edge's place in the 4-cycle
throttle pattern and `thr` the throttle state in force for this pattern (05 R175, R177). -/
structure SlabPort where
  dout : BitVec 128 := 0
  pout : BitVec 16 := 0
  pipe : List (Option (BitVec 128 × BitVec 16)) := []
  phase : Fin 4 := 0
  thr : Nat := 0
deriving DecidableEq, Repr

/-- Coping memory (05). Slab byte b of slab s of brick n is at n * 2^29 + s * 16384 + b. -/
structure Coping where
  mem : SMap MByte
  /-- user ports by (brick * 25600 + slab) * 2 + port -/
  ports : SMap SlabPort
  scrubCtl : W32
  scrubPos : SMap Nat
  scrubPasses : SMap W32
  throttle : SMap Nat
  throttleTemp : SMap (BitVec 16)
  throttleSensor : SMap Nat
  seen : BitVec 16
  ce : SMap W32
  ue : SMap W32
  poison : SMap W32
  lastErr : SMap W64
deriving DecidableEq, Repr

/-! ### 06 Configuration -/

/-- Where an image comes from (06 R197, R198). -/
inductive LoadSource where
  | host
  | boot (fallback : Bool)
deriving DecidableEq, Repr

/-- A region held in reset by a load (06 R195, R199): bricks of a mask, or one brick's rectangle. -/
inductive Region where
  | bricks (mask : BitVec 8)
  | rect (brick : Fin 8) (aFirst bFirst aLast bLast : Nat)
deriving DecidableEq, Repr

/-- The phases of CFG_STATE (06 T6.6). -/
inductive LoadPhase where
  | awaitHeader | writing | verifying | releasing | failed
deriving DecidableEq, Repr

/-- A load under way (06 R189 to R201). `rx`: bytes received and not yet taken, with their poison marks; `body`: every byte
from 128 on, for the running digest. -/
structure Load where
  source : LoadSource
  phase : LoadPhase := .awaitHeader
  /-- the region it put into reset (06 R191, R199) -/
  region : Option Region := none
  header : List Byte := []
  rx : List (Byte × Bool) := []
  body : List Byte := []
  bytes : Nat := 0
  lastIndex : Nat := 0
  frames : Nat := 0
  slabs : Nat := 0
  /-- slabs that received contents -/
  gotSlabs : List Nat := []
  /-- bytes offset read from the boot devices -/
  bootPos : Nat := 0
  /-- release steps taken (06 R201) -/
  released : Nat := 0
  step : Nat := 64
deriving DecidableEq, Repr

/-- A host load session (06 R198). -/
structure CfgSession where
  port : Fin 8
  source : BitVec 16
  /-- bytes a stream still awaits, of a CFG_DATA that is running -/
  stream : Option Nat
  fetching : Bool
deriving DecidableEq, Repr

/-- The configuration controller (06). -/
structure Cfg where
  session : Option CfgSession
  load : Option Load
  /-- the first boot image's outcome while the fallback loads (06 R197) -/
  bootFirst : Option (BitVec 16 × Byte)
  /-- a CFG_BOOT or the start asked for a boot load that has not begun -/
  bootAsked : Option Bool
  lastStatus : BitVec 16
  lastCause : Byte
  lastKind : Bool
  frames : W32
  bytes : W64
  dropped : W32
  versions : SMap W32
  region : W32
  regionBrick : BitVec 5
  releaseStep : BitVec 11
  bootPins : BitVec 2
  /-- bricks that hold a released full image -/
  loaded : BitVec 8
  /-- regions in reset from a load -/
  held : List Region
  /-- frame bytes: brick n frame f byte b at (n * 204832 + f) * 1152 + b, hub frames as brick 8 -/
  frameMem : SMap Byte
  /-- personality identity by brick (07 R230) -/
  identity : SMap (List Byte)
deriving DecidableEq, Repr

/-! ### 07 Capture and trace -/

/-- The parameters of a CAP_TAKE (07 T7.15) with the entry it answers. -/
structure Take where
  port : Fin 8
  source : BitVec 16
  tag : BitVec 16
  full : Bool
  domain : Bool
  resume : Bool
  at_ : Option W64
  area : W64
  areaLength : W64
deriving DecidableEq, Repr

/-- A capture in progress (07 R218 to R222). -/
structure Capture where
  take : Take
  noEdge : Bool := false
  incoherent : Bool := false
  time : W64 := 0
  edge : W64 := 0
  /-- the beat that E ends, the run line and the DUT lines at E (T7.5) -/
  beat : W64 := 0
  runLine : BitVec 6 := 0
  dutLines : W64 := 0
  busyPorts : W32 := 0
  /-- in Sealed, the capture key of the session in force and its identifier (07 R233) -/
  key : Option (List Byte × W64) := none
  /-- the rows of the bond section (07 R250): group, beat and samples of those on their way at E -/
  rows : List (Nat × Nat × List Byte) := []
deriving DecidableEq, Repr

/-- A restore in progress (07 R226, R227). -/
structure Restore where
  port : Fin 8
  source : BitVec 16
  tag : BitVec 16
  slabs : Bool
  run : Bool
  domain : Bool
  area : W64
  /-- the checkpoint's brick_mask, and whether its slabs are to be restored, once its header has passed -/
  mask : Nat := 0
  full : Bool := false
  /-- the header and the directory as they were read, and the key of the session in force (07 R226) -/
  head : List Byte := []
  key : Option (List Byte × W64) := none
deriving DecidableEq, Repr

/-- A CAP_CLOCK_RUN that awaits its state: its op, and the op_seq of the domain operation that it coordinates (07 R245,
R247). -/
structure RunCmd where
  port : Fin 8
  source : BitVec 16
  tag : BitVec 16
  op : Nat
  seq : Option (BitVec 16) := none
deriving DecidableEq, Repr

/-- CAP_STATE phases (07 T7.11). -/
inductive CapPhase where
  | idle | awaitEdge | pause | lightDrain | fullDrain | restoreLoading | aborting
deriving DecidableEq, Repr

/-- A trace sample waiting for its block: its bytes and mark, the trace-line edge and the beat it was taken at, and
the samples dropped just before it (07 R236, R238). -/
structure Sample where
  bytes : List Byte
  mark : Bool
  edge : Nat
  beat : W64
  lost : Nat
deriving DecidableEq, Repr

/-- One brick's trace collector (07 R235 to R239). `taps`: course * 16 + tap to source. -/
structure Collector where
  running : Bool := false
  dram : Bool := false
  wrap : Bool := false
  overflow : Bool := false
  stoppedFull : Bool := false
  stoppedTrigger : Bool := false
  line : BitVec 6 := 0
  base : W64 := 0
  length : W64 := 0
  taps : SMap Nat := []
  blockSeq : W32 := 0
  lost : W32 := 0
  lostRun : Nat := 0
  samples : List Sample := []
  edges : Nat := 0
  markNext : Bool := false
  postCount : Option Nat := none
  /-- stopped with a partial block still to write (07 R239) -/
  flush : Bool := false
  /-- this run was stopped by a trigger (07 R238) -/
  byTrigger : Bool := false
deriving DecidableEq, Repr

/-- A trigger unit (07 R241 to R244). -/
structure Trigger where
  armed : Bool := false
  fired : Bool := false
  captureMissed : Bool := false
  combine : BitVec 2 := 0
  actions : BitVec 5 := 0
  need : W32 := 0
  count : W32 := 0
  inputs : List (BitVec 16) := []
  matchVal : W64 := 0
  postCount : W32 := 0
  seqPos : Nat := 0
  last : Bool := false
  /-- the run-line edge it last fired at: a chaining input at the next edge (07 R243), and whether its actions are
  still to be taken (R244) -/
  firedAt : Option W64 := none
  due : Bool := false
deriving DecidableEq, Repr

/-- Capture, restore, trace, triggers and run control (07). -/
structure Cap where
  dutLines : W64
  stopped : W64
  runLine : BitVec 6
  edges : W64
  drain : W64
  phase : CapPhase
  lastStatus : BitVec 16
  lastCause : Byte
  lastRestore : Bool
  armed : Option Take
  capture : Option Capture
  restore : Option Restore
  /-- a stop asked for at an edge number, and one at a beat of the domain (07 R245) -/
  stopAt : Option W64
  stopBeat : Option W64
  /-- a stop is due at the next reference edge (07 R212, R244, R245) -/
  stopDue : Bool
  /-- DUT lines held by a capture's pause, not by run control (07 R219, R220) -/
  paused : W64
  /-- the CAP_CLOCK_RUN commands that await their state -/
  runCmds : List RunCmd
  domainOp : Bool
  collectors : SMap Collector
  triggers : SMap Trigger
  /-- TRIG_OUT pulses driven (07 R244) -/
  trigOut : Nat
  /-- the device time at which the last one began, and 1 -/
  trigOutAt : Nat
  /-- in a domain's restore, the beats that the other members have read in their checkpoints; none of a member that has no
  checkpoint to restore (07 R250) -/
  peerBeats : List (Byte × Option W64)
  /-- what CAP_CLOCK_RUNs asked for in Hold, with effect on leaving it (07 R246): op 6's mask and line, and a domain's op 0 or
  6 with its command -/
  afterHold : List (RunCmd × Bool × W64 × BitVec 6)
deriving DecidableEq, Repr

/-! ### 08 Bond -/

/-- Group states (08 T8.9). -/
inductive GrpState where
  | unused | configured | training | up | down | held | peerHold | retired | peerLeft | trainFailed
deriving DecidableEq, Repr

/-- A control frame (08 T8.3, R277, R280, R282, R292); the codes are not published (assumption log 82). -/
inductive Ctrl where
  | nak (seq : BitVec 12)
  | hold
  | resume
  | leave
  | op (o : DomOp)
  | time (t : W64)
deriving DecidableEq, Repr

/-- A request as it is tunnelled (08 R283): the request, the device it goes to and the address there. -/
structure Tunnel where
  req : GReq
  device : BitVec 6
  addr : Addr
deriving DecidableEq, Repr

/-- A bond group: configuration, state, counters, frame layer and fold units (08). -/
structure BondGroup where
  state : GrpState := .unused
  cause : BitVec 4 := 0
  usable : BitVec 8 := 0
  retired : BitVec 8 := 0
  kShort : Bool := false
  use : Bool := false
  rate : BitVec 2 := 0
  peerDevice : BitVec 6 := 0
  peerGroup : BitVec 5 := 0
  k : Byte := 0
  wiresOut : BitVec 7 := 0
  wiresIn : BitVec 7 := 0
  kMin : Byte := 0
  tLink : BitVec 16 := 0
  crc : W32 := 0
  replays : W32 := 0
  retrains : W32 := 0
  sendSeq : BitVec 12 := 0
  recvSeq : BitVec 12 := 0
  session : W32 := 0
  /-- numbered frames not yet acknowledged, oldest first -/
  replayBuf : List Frame := []
  /-- how often each frame of the buffer has been replayed, by its sequence number (08 T8.5) -/
  replayed : SMap Nat := []
  /-- control frames sent and not yet taken by the peer, oldest first -/
  ctrlOut : List Ctrl := []
  /-- the last beat whose frame was received -/
  rxBeat : W64 := 0
  /-- the beat frames received and not yet presented: beat and samples -/
  incoming : List (W64 × List Byte) := []
  /-- the value presented on the incoming fold wires -/
  presented : List Byte := []
  /-- the value the outgoing fold wires carry -/
  outgoing : List Byte := []
  /-- device time the group went DOWN (08 R290) -/
  downAt : Nat := 0
  /-- RESUME received and the 50 ms return under way (08 T8.5) -/
  resuming : Bool := false
  /-- tunnelled requests outstanding, and the count of late responses (08 R285) -/
  tunnels : List GReq := []
  txnLate : Nat := 0
  /-- requests of other members forwarded here and unanswered, with the group each came by, and requests that wait
  for response space (08 R284, R285) -/
  forwards : List (GReq × Nat) := []
  queued : List (Tunnel × Option Nat) := []
  /-- this part is in Hold, or its lanes have not all retrained since: RESUME is still to be sent (08 R292) -/
  holding : Bool := false
  /-- TXN frames that wait for their turn: kind and payload (08 R279) -/
  txq : List (BitVec 8 × List Byte) := []
  /-- domain operations that wait for the op block of a beat frame (08 R279, R280) -/
  opsOut : List DomOp := []
  /-- what the group may still send before its next beat frame is due, in eighths of a byte (08 R279) -/
  room : Nat := 0
  /-- by lane of the group: the scrambler, and the line levels of the last frame sent (08 R276, 09 R308) -/
  scramblers : SMap (BitVec 58) := []
  sent : SMap (List (BitVec 2)) := []
deriving DecidableEq, Repr

/-- Domain states (08 T8.7). -/
inductive DomState where
  | unconfigured | configured | training | stopped | running | frozen | held | halted
deriving DecidableEq, Repr

/-- A bond window (08 T8.6). -/
structure Window where
  en : Bool := false
  device : BitVec 6 := 0
  base : W64 := 0
deriving DecidableEq, Repr

/-- The bond link (08). -/
structure Bond where
  state : DomState
  idSource : Bool
  pipelined : Bool
  device : BitVec 6
  beatLine : BitVec 6
  domainId : W32
  members : W64
  beat : W64
  /-- the last beat whose samples have been sent -/
  txBeat : W64
  period : BitVec 20
  sampleDelay : Byte
  presentMargin : Byte
  resumeMs : BitVec 16
  stretchBeats : W32
  stretchNs : Nat
  overruns : W32
  freezeCause : BitVec 4
  freezeGroup : BitVec 5
  freezeAt : Nat
  hops : BitVec 6
  dist : BitVec 14
  /-- beat-locked lines: entry to line and ratio (08 T8.11) -/
  locked : SMap (BitVec 6 × BitVec 7)
  groups : SMap BondGroup
  windows : SMap Window
  /-- routes by device: group + 1 (08 T8.6) -/
  routes : SMap Nat
  /-- domain operations known: origin * 65536 + op_seq, and those scheduled -/
  seenOps : List Nat
  ops : List DomOp
  opSeq : BitVec 16
  /-- the 64-bit operand that an origin's operation carries besides its argument (assumption log 47) -/
  opArg : SMap W64
  /-- operations acted on while the beat line stands (08 R281) -/
  acted : List DomOp
  /-- relays whose reply has timed out: the device, and the opcode and the tag of the inner packet, whose late reply is dropped (08
  R286) -/
  relayLate : List (Byte × BitVec 16 × BitVec 16)
  timeOffset : Int
deriving DecidableEq, Repr

/-! ### 09 Lanes -/

/-- Lane states (09 T9.13). -/
inductive LaneState where
  | off | noRef | bringup | up | retraining | retired | failed | idle
deriving DecidableEq, Repr

/-- A lane (09 T9.12, T9.13, R307 to R316). -/
structure Lane where
  use : BitVec 4 := 0
  rate : BitVec 4 := 0
  refSel : Bool := false
  loop : BitVec 3 := 0
  preset : BitVec 4 := 0
  bringup : Bool := false
  ctleLo : BitVec 5 := 0
  ctleHi : BitVec 5 := 31
  ffe : Bool := true
  dfe : Bool := true
  state : LaneState := .off
  retireCause : BitVec 2 := 0
  locked : Bool := false
  eqNotMet : Bool := false
  atRisk : Bool := false
  scanBusy : Bool := false
  margining : Bool := false
  prbsGen : Bool := false
  prbsChk : Bool := false
  prbsLock : Bool := false
  prbsPattern : BitVec 3 := 0
  prbsInvert : Bool := false
  failStep : Byte := 0
  ctle : BitVec 5 := 0
  dfeH1 : Byte := 0
  txPre : Byte := 0
  txPost : Byte := 0
  retrains : BitVec 16 := 0
  /-- device times of counted retrains (08 T8.4: three within 10 s) -/
  retrainTimes : List Nat := []
  prbsErr : BitVec 48 := 0
  prbsBits : BitVec 48 := 0
  codeErr : W32 := 0
  ethCorr : W32 := 0
  ethUncorr : W32 := 0
  ethSym : W32 := 0
  /-- bring-up: step, good sets received in a row, ACK sets received and sent, the peer's last set (09 R307) -/
  step : Nat := 0
  good : Nat := 0
  acks : Nat := 0
  acksSent : Nat := 0
  peerRate : BitVec 4 := 0
  peerPreset : BitVec 4 := 0
  /-- sync headers: valid in a row, and the last 64 (09 R309) -/
  hdrRun : Nat := 0
  hdrBad : List Bool := []
  /-- the 8b/10b receiver's and transmitter's running disparity, positive or not, and the ordered set that the lane sends (09
  R306, T9.3) -/
  rxRd : Bool := false
  txRd : Bool := false
  txSet : List (BitVec 10) := []
  /-- the descrambler, and the last 8 blocks of the data level: control block and payload (09 R308, T9.9) -/
  descrambler : BitVec 58 := 0
  rxBlocks : List (Bool × W64) := []
  /-- the line levels that a far-end loop sends again (09 R313) -/
  retimed : List (BitVec 2) := []
  /-- the checker: the bits it has, those it takes its prediction from, correct ones in a row, and the errors of the last
  1,024 (09 R315) -/
  prbsFill : Nat := 0
  prbsReg : BitVec 31 := 0
  prbsRun : Nat := 0
  prbsWin : List Bool := []
  /-- the taps of the receiver's FFE, and of its DFE from the second on, and the device time, plus 1, of the last step of the CTLE (09 R311, R312) -/
  ffeTaps : List Byte := List.replicate 8 0
  dfeTaps : List Byte := List.replicate 11 0
  ctleAt : Nat := 0
  /-- width of the Ethernet port whose lowest lane this is; 0 none -/
  ethWidth : Nat := 0
  ethUp : Bool := false
deriving DecidableEq, Repr

/-- LNS_REF_m (09 T9.11). -/
structure Refs where
  freqA : BitVec 2 := 0
  freqB : BitVec 2 := 0
  stateA : BitVec 2 := 0
  stateB : BitVec 2 := 0
deriving DecidableEq, Repr

/-- A PCIe controller (09 T9.14, R317 to R323). -/
structure Pcie where
  enable : Bool := true
  maxWidth : BitVec 3 := 0
  maxRate : BitVec 4 := 15
  ltssm : BitVec 4 := 0
  width : BitVec 3 := 0
  rate : BitVec 4 := 0
  flit : Bool := false
  bme : Bool := false
  d3hot : Bool := false
  retired : BitVec 16 := 0
  b4base : W64 := 0
  hbase : W64 := 0
  /-- requests through the host window that await a completion (09 R320) -/
  outstanding : List GReq := []
  /-- completions sent to the host for BAR 4 reads: tag and outcome (09 R319) -/
  hostReplies : List (BitVec 10 × BitVec 4 × List Byte × Bool) := []
deriving DecidableEq, Repr

/-- An eye scan (09 R316, R332). -/
structure Scan where
  port : Fin 8
  source : BitVec 16
  tag : BitVec 16
  lane : Nat
  points : Nat
  addr : W64
deriving DecidableEq, Repr

/-- The lanes (09). -/
structure Lanes where
  lanes : SMap Lane
  refs : SMap Refs
  pcie : SMap Pcie
  scans : List Scan
  /-- LNS_CONFIG and BND_TRAIN commands that await bring-ups: their lanes and their completion entry -/
  waits : List (List Nat × Fin 8 × BitVec 16 × BitVec 16)
deriving DecidableEq, Repr

/-! ### 10 Grout -/

/-- A unit's fence state (10 T10.9). -/
inductive UnitState where
  | running | draining | drained | fenced | held
deriving DecidableEq, Repr

/-- A grout unit (10 R359, R360). `drainedRouters`: routers that have returned DRAINED;
`reqRouters`: routers FENCE_REQ has reached. -/
structure GUnit where
  state : UnitState := .running
  forced : Bool := false
  drainUs : BitVec 16 := 0
  startAt : Nat := 0
  drainMs : Nat := 0
  timeouts : W32 := 0
  /-- the unit's own requests whose responses a forced fence discards (R360) -/
  discards : List GReq := []
  reqRouters : List Nat := []
  drainedRouters : List Nat := []
  cmd : Option (Fin 8 × BitVec 16 × BitVec 16) := none
deriving DecidableEq, Repr

/-- A guaranteed flow (10 R351 to R355). -/
structure Flow where
  id : Nat
  network : Bool
  src : Endpoint
  dst : Endpoint
  slots : W32
  active : Bool
  removing : Bool
  outstanding : Nat
deriving DecidableEq, Repr

/-- A router's probe (10 R362, T10.13). -/
structure Probe where
  en : Bool := false
  record : Bool := false
  outMask : BitVec 5 := 0
  net : BitVec 2 := 0
  cls : BitVec 2 := 0
  masterLo : BitVec 16 := 0
  masterHi : BitVec 16 := 0
  base0 : W64 := 0
  mask0 : W64 := 0
  base1 : W64 := 0
  mask1 : W64 := 0
  pkts : W64 := 0
  flits : W64 := 0
  hits0 : BitVec 16 := 0
  hits1 : BitVec 16 := 0
  overflowed : Bool := false
deriving DecidableEq, Repr

/-- The grout network (10). -/
structure Grout where
  roundLocked : Bool
  rounds : W64
  /-- endpoints isolated as dead: (y * 36 + x) * 4 + ep -/
  dead : List Nat
  deadLast : W32
  absorbed : W32
  isoAnswers : W32
  tmoAnswers : W32
  units : SMap GUnit
  flows : List Flow
  slotSel : W32
  probeSel : W32
  probes : SMap Probe
  pstoreBase : W64
  pstoreLen : W64
  pstoreNext : W64
  pstoreLost : W32
  /-- requests delivered and unanswered -/
  inflight : List GReq
  /-- responses on their way to their requesters -/
  responses : List GResp
  /-- packets of guaranteed flows that wait at their source (R352, R354) -/
  waiting : List GReq
  /-- a probe's first loss has been logged, by router (R363) -/
  lossLogged : SMap Bool
deriving DecidableEq, Repr

/-! ### 11, 12 Engines -/

/-- Engine states (11 T11.5). -/
inductive EngState where
  | stopped | running | waiting | halted | faulted | wedged
deriving DecidableEq, Repr

/-- A store-buffer entry (11 R381): the local address, or the grout address of a global store. -/
structure SbEntry where
  isGlobal : Bool
  addr : Nat
  size : Nat
  data : W64
  poison : Bool
  sent : Bool
deriving DecidableEq, Repr

/-- An instruction that accesses memory: LD, or a 64-bit instruction with its two slots (12 R426). -/
inductive MemInstr where
  | ld (rd : Fin 32) (m : MemForm)
  | pair (s1 s2 : Slot) (size : Fin 4) (sx : Bool) (w : ComputeWord)
deriving DecidableEq, Repr

/-- An instruction that waits for its global loads (11 R380, 12 R427): the address of the load under
way, those still to send and what the answered ones returned (bytes and poison). The instruction takes
effect whole when the last has answered. -/
structure GLoad where
  instr : MemInstr
  addr : Addr
  more : List Addr
  got : List (List Byte × Bool)
deriving DecidableEq, Repr

/-- A register with its poison bit (11 R385). -/
structure PReg (w : Nat) where
  v : BitVec w := 0
  p : Bool := false
deriving DecidableEq, Repr

/-- A comparator (11 T11.9). -/
structure Cmp where
  addr : W32 := 0
  mask : W32 := 0
  ctl : W32 := 0
deriving DecidableEq, Repr

/-- A DMA transfer under way (11 R391). -/
structure Dma where
  busy : Bool := false
  /-- packets still in flight after an abort -/
  aborting : Option Nat := none
  done : Bool := false
  error : Bool := false
  poisoned : Bool := false
  status : BitVec 4 := 0
  remaining : BitVec 18 := 0
  moved : Nat := 0
  /-- packets still in flight while the engine is HALTED (16 R549) -/
  held : Option Nat := none
deriving DecidableEq, Repr

/-- One engine (11, 12). Memory byte a of U is at a, of V at 0x2_0000 + a, of P at 0x4_0000 + a, as in
its window (11 T11.1). -/
structure Engine where
  state : EngState := .stopped
  /-- the state before Hold or a halt: WAITING rather than RUNNING -/
  wasWaiting : Bool := false
  clkDiv : BitVec 5 := 1
  pc : W32 := 0
  excActive : Bool := false
  storeErr : Bool := false
  storeErrOverrun : Bool := false
  /-- the response status that store_err_pending records (11 R387) -/
  storeErrStatus : BitVec 4 := 0
  faultCode : Byte := 0
  mem : SMap MByte := []
  g : SMap (PReg 32) := []
  ac : SMap (PReg 72) := []
  p : SMap (PReg 32) := []
  m : SMap (PReg 32) := []
  b : SMap W32 := []
  l : SMap W32 := []
  sr : W32 := 0
  /-- poison of the flags: bit i for sr[i] (11 R385; assumption log 30) -/
  fp : BitVec 5 := 0
  lc : SMap W32 := []
  ls : SMap W32 := []
  le : SMap W32 := []
  lpact : BitVec 4 := 0
  /-- the repeat cache: instruction addresses captured, with their bytes (12 R420) -/
  cache : SMap (List MByte) := []
  gie : Bool := false
  faultVec : Bool := false
  epc : W32 := 0
  ecause : W32 := 0
  vbase : W32 := 0
  ie : BitVec 4 := 0
  ip : BitVec 4 := 0
  faultAddr : Addr := 0
  seg : SMap W32 := []
  timer : W32 := 0
  timerCmp : W32 := 0xFFFFFFFF
  timerCtl : W32 := 0
  /-- the device time at which `timer` was the count, and the 2,000 MHz cycles that the prescaler had then counted (11 R390) -/
  timerAt : Nat := 0
  prescale : Nat := 0
  dmaLocal : W32 := 0
  dmaGlobal : Addr := 0
  dmaLen : BitVec 18 := 0
  dmaDir : Bool := false
  dmaIrq : Bool := false
  dma : Dma := {}
  mbReqAddr : W32 := 0
  mbReqLen : W32 := 0
  mbRplAddr : W32 := 0
  mbRplMax : W32 := 0
  mbTruncated : Bool := false
  cmps : SMap Cmp := []
  memCe : W32 := 0
  memUe : W32 := 0
  sb : List SbEntry := []
  gload : Option GLoad := none
  /-- ENG_STOP asked: mode (11 R402); halt asked: cause (16 R549) -/
  stopAsked : Option Bool := none
  haltAsked : Option (BitVec 2) := none
  /-- the cause of the last halt (16 T16.9) -/
  haltedBy : BitVec 2 := 0
  /-- instructions a step still executes, and whether interrupts are off (16 R548, R550) -/
  steps : Nat := 0
  stepNoInt : Bool := false
  /-- stopped by Hold; the engine's clock is stopped (11 R396) -/
  holdStopped : Bool := false
deriving DecidableEq, Repr

/-! ### 13 DRAM -/

/-- DRAM channel states (13 T13.8). -/
inductive ChanState where
  | empty | training | trained | failed | selfRefresh
deriving DecidableEq, Repr

/-- A DRAM channel (13 T13.7 to T13.9). -/
structure Chan where
  state : ChanState := .empty
  cause : BitVec 4 := 0
  mts : BitVec 16 := 0
  capGiB : BitVec 16 := 0
  halved0 : Bool := false
  halved1 : Bool := false
  code0 : Byte := 0
  code1 : Byte := 0
  ce : W32 := 0
  ue : W32 := 0
  poison : W32 := 0
  lastErr : W64 := 0
  inorder : W32 := 0
  recentreHeld : Bool := false
  recentre : BitVec 16 := 0
  /-- steps from the trained centre (13 R432) -/
  offset : Int := 0
  refreshes : Nat := 0
deriving DecidableEq, Repr

/-- A DRAM request queued at a port (13 R434). -/
structure DReq where
  req : GReq
  /-- the write was answered at acceptance -/
  answered : Bool
  /-- this read put its bank queue into in-order mode (13 R435) -/
  inOrder : Bool
deriving DecidableEq, Repr

/-- Region states (13 T13.11). -/
inductive RegState where
  | off | initialising | active | exhausted | keyless
deriving DecidableEq, Repr

/-- An encryption region (13 R442 to R450). -/
structure MekRegion where
  state : RegState := .off
  baseGiB : BitVec 13 := 0
  sizeGiB : BitVec 13 := 0
  metaBase : Addr := 0
  metaLen : W64 := 0
  random : Bool := false
  levels : BitVec 4 := 0
  rootUsed : BitVec 4 := 0
  roots : SMap (BitVec 56) := []
  integ : W32 := 0
  maxCtr : BitVec 56 := 0
  /-- the key in force: 96 bytes K1 K2 K3 -/
  key : List Byte := []
  cmd : Option (Fin 8 × BitVec 16 × BitVec 16) := none
deriving DecidableEq, Repr

/-- A line of the metadata cache (13 R448). -/
structure MetaLine where
  bytes : List Byte
  dirty : Bool
deriving DecidableEq, Repr

/-- What enabling a region wrote (13 R450): encrypted zeros under counter 0 from `base` on, and the tags
and zero counters of the carve-out. A byte keeps what it held where a later write has set it. -/
structure Fill where
  base : Nat
  size : Nat
  metaBase : Nat
  metaLen : Nat
  key : List Byte
  /-- the training number `epoch` had reached -/
  stamp : Nat
deriving DecidableEq, Repr

/-- DRAM and inline encryption (13). -/
structure Dram where
  /-- DIMM bytes by grout address that a write has set since the last training; an unlisted byte reads
  as the newest fill that covers it since then left it, or as the free value of that training (13 R431) -/
  mem : SMap (Option Byte)
  /-- region initialisations since the last training, newest first (13 R450) -/
  fills : List Fill
  epoch : Nat
  /-- each channel's last training that wrote patterns, counted by `epoch` -/
  written : SMap Nat
  /-- lines stored poisoned, by address / 64 (13 R440) -/
  poisoned : SMap Bool
  installed : W64
  chans : SMap Chan
  /-- queues by port: reads and writes in arrival order -/
  queues : SMap (List DReq)
  regions : SMap MekRegion
  alarm : BitVec 24
  hits : W32
  misses : W32
  /-- the metadata cache by line address / 64 -/
  cache : SMap MetaLine
  /-- the DRC_TRAIN that runs: port, source, tag, channel mask and speed cap (13 R455) -/
  trainCmd : Option (Fin 8 × BitVec 16 × BitVec 16 × Byte × Nat)
deriving DecidableEq, Repr

/-! ### 14 Protection -/

/-- The stored security mode (14 R461). -/
inductive SecMode where
  | blank | opened | sealed
deriving DecidableEq, Repr

/-- A debug session (14 R476, R477). -/
structure Session where
  isImplicit : Bool
  port : Fin 8
  source : BitVec 16
  keyId : W64
  captureKey : Option (List Byte)
deriving DecidableEq, Repr

/-- An access-table entry (14 T14.11). -/
structure AclEntry where
  masterLo : BitVec 16 := 0
  masterHi : BitVec 16 := 0
  rights : Byte := 0
  base : W64 := 0
  limit : W64 := 0
deriving DecidableEq, Repr

/-- A cached verdict (14 R484). -/
structure Verdict where
  master : BitVec 16
  page : Nat
  op : BitVec 2
  allow : Bool
deriving DecidableEq, Repr

/-- Security, sessions and access tables (14). -/
structure Sec where
  stored : SecMode
  latch : Bool
  firstCause : BitVec 3
  latching : BitVec 5
  seen : BitVec 5
  policy : BitVec 5
  /-- the key store by SEC_SLOTS bit: 0-3 K, 4-7 I, 8 KD, 16-23 M; empty list: empty slot -/
  keys : SMap (List Byte)
  session : Option Session
  /-- entries written since reset, by target * 256 + index -/
  acl : SMap (Option AclEntry)
  /-- an unwritten entry 0 of each target grants everything (14 R483) -/
  aclOpen : Bool
  /-- verdict caches by target * 4096 + endpoint, most recent first -/
  caches : SMap (List Verdict)
  stale : SMap Bool
  denials : SMap (BitVec 16)
  lastDeny : W64
  lastDenyMaster : BitVec 16
  sweeps : W32
  disagreements : BitVec 16
  lastUnit : Byte
  mismatched : List Nat
deriving DecidableEq, Repr

/-- The guest gate (14 R486 to R489). -/
structure Gst where
  table : SMap (Option AclEntry)
  tableOpen : Bool
  isolated : Bool
  rate : BitVec 13
  burst : BitVec 16
  /-- tokens in bytes, and the time they were last refilled -/
  tokens : Nat
  refillAt : Nat
  violations : W32
  absorbed : W32
  stallUs : W32
  lastViol : W64
  withheld : List (GReq × Nat)
  /-- responses delivered to the guest -/
  answers : List GResp
  irqs : Nat
deriving DecidableEq, Repr

/-! ### 15 Power and clocks -/

/-- Whether the part runs (15 R502, R525, R528). -/
inductive Phase where
  | off | inReset | starting | running | dormant | tripped
deriving DecidableEq, Repr

/-- The power modes (14 R460). -/
inductive PwrMode where
  | run | trim | hold | dormant
deriving DecidableEq, Repr

/-- The Dormant record of the keep-alive domain (15 R507). `cause`: 0 none, 1 Dormant, 2 VIN_LOST,
3 thermal trip. -/
structure DormantRecord where
  cause : Nat := 0
  time : W64 := 0
  rtc : W64 := 0
  wake : Nat := 0
  die : Nat := 0
  sensor : Nat := 0
  reading : BitVec 16 := 0
deriving DecidableEq, Repr

/-- An adaptive loop's request and effect (15 R529, T15.10). -/
structure LoopReg where
  target : Byte := 0
  hi : Byte := 0
  lo : Byte := 0
  effTarget : Byte := 0
  effHi : Byte := 0
  effLo : Byte := 0
  notMet : Bool := false
deriving DecidableEq, Repr

/-- A reference monitor (15 R519, T15.5): stage, reading, and runs of readings beyond each threshold
and within each clearing one. -/
structure Mon where
  stage : BitVec 2 := 0
  reading : BitVec 24 := 0
  over1 : Nat := 0
  over2 : Nat := 0
  good1 : Nat := 0
  good2 : Nat := 0
deriving DecidableEq, Repr

/-- A PWR_MODE_SET that waits for its mode (15 R509, R510). -/
structure ModeCmd where
  port : Fin 8
  source : BitVec 16
  tag : BitVec 16
  mode : PwrMode
  wakeEn : BitVec 2
  rtcMatch : BitVec 48
deriving DecidableEq, Repr

/-- Power, thermal, keep-alive domain and reset (15). -/
structure Power where
  phase : Phase
  mode : PwrMode
  limiting : Bool
  capNotMet : Bool
  holdCause : BitVec 2
  engDiv : BitVec 4
  genStep : BitVec 5
  wakeEn : BitVec 2
  cap : BitVec 16
  islands : BitVec 17
  resetCause : ResetCause
  /-- the port of a PWR_RESET whose reset is due, and whether it clears the latch (14 R468) -/
  resetDue : Option (Fin 8 × Bool)
  resetPort : Byte
  dormantDue : Bool
  /-- a Hold that waits for step 1 of 15 R510: its hold_cause -/
  holdDue : Option (BitVec 2)
  /-- PWR_MODE_SETs that wait, oldest first -/
  modeCmds : List ModeCmd
  /-- a wake that waits for VIN (15 R512) -/
  wakePending : Option WakeCause
  resetNLow : Bool
  thermtrip : Bool
  /-- VIN and current in 10 mV and 10 mA, input power in W, VBAT in mV as sensed (15 T15.10) -/
  vin : BitVec 16
  current : BitVec 16
  watts : BitVec 16
  vbat : BitVec 12
  /-- sensor readings in 1/16 degree, by die * 16 + sensor (15 R528); unlisted: 25 degrees -/
  temps : SMap (BitVec 16)
  /-- sensors above 105 degrees whose crossing is logged -/
  high : SMap Bool
  loops : SMap LoopReg
  /-- the real-time counter as it stood at device time `rtcAt` (15 R506) -/
  rtc : BitVec 48
  rtcAt : Nat
  rtcMatch : BitVec 48
  record : DormantRecord
  /-- retention RAM: memory-key wraps and roots by region (13 T13.4) -/
  wraps : SMap (List Byte)
  retRoots : SMap (SMap (BitVec 56))
  retRegions : SMap MekRegion
  /-- units powering up under PWR_ISLAND_SET and the command each answers -/
  poweringUp : List (Nat × Fin 8 × BitVec 16 × BitVec 16)
  /-- clock stretches on droop (15 R530) -/
  stretches : Nat
  /-- by island: its supply in steps of 5 mV; and the droop threshold in mV below the set point (15 T15.9; log 86) -/
  supply : SMap Nat
  droop : Nat
deriving DecidableEq, Repr

/-- Clocks (15 T15.12). -/
structure Clk where
  current : BitVec 4
  primary : BitVec 4
  alternate : BitVec 4
  derated : Bool
  standbyLocked : Bool
  xoQualified : Bool
  fsel : BitVec 3
  /-- XO readings in a row that qualify, in ppm, newest first (15 R515) -/
  xoReadings : List Int
  /-- XO_FAILED has been logged; the device time of the hub's release from reset -/
  xoFailed : Bool
  releasedAt : Nat
  mon : Mon
  monAlt : Mon
  switches : W32
  gate : BitVec 16
  div0 : W32
  div1 : Byte
  outSrc : Byte
  outDiv : BitVec 16
  /-- a CLK_SOURCE_SET whose standby PLLs are locking -/
  pendingPrimary : Option (BitVec 4 × BitVec 4)
deriving DecidableEq, Repr

/-! ### 16 Debug port -/

/-- The debug port and run control (16). -/
structure Dbg where
  /-- the sampled protocol: two-wire (16 R536) -/
  twoWire : Bool
  instr : Byte
  testActive : Bool
  refused : Bool
  overrun : Bool
  resetSeen : Bool
  /-- the grout access register (16 T16.3) -/
  accOp : BitVec 2
  accAddr : Addr
  accData : W32
  accStatus : BitVec 4
  accBusy : Bool
  accPoisoned : Bool
  /-- the tag of the last access: the answer of one that a debug-domain reset has discarded carries another (16 R538) -/
  accTag : BitVec 10
  accesses : W32
  /-- what Capture-DR last loaded (16 R544, R545) -/
  captured : BitVec 96
  /-- reply bytes shifted out so far -/
  shifted : Nat
  /-- the last two-wire answer and data (16 R547) -/
  twAnswer : BitVec 2
  twData : W32
  /-- the check that follows the data of a two-wire read (16 R547) -/
  twCheck : BitVec 16
  /-- boundary cells captured or preloaded (16 R541) -/
  boundary : SMap Bool
  freeze : BitVec 7
  xhalt : BitVec 192
  /-- freeze bit 2 has idled the lanes (16 R553) -/
  lanesFrozen : Bool
deriving DecidableEq, Repr

/-! ### 17 Event recorder -/

/-- An event record (17 R560). -/
structure Rec where
  code : BitVec 16
  slots : List W64
  time : Nat
deriving DecidableEq, Repr

/-- A stored record: its sequence number and whether its valid byte is written (17 R561). -/
structure StoredRec where
  seq : W32
  entry : Rec
  torn : Bool
deriving DecidableEq, Repr

/-- A page of the log store (17 R563). -/
structure Page where
  erases : Nat := 0
  firstSeq : W32 := 0
  recs : List StoredRec := []
  /-- bytes used, header and torn records included -/
  used : Nat := 32
  /-- SLOW_PROGRAM logged this erase cycle; to be retired at the next erase (17 R569) -/
  slow : Bool := false
  worn : Bool := false
deriving DecidableEq, Repr

/-- A rate-limit bucket (17 R566, R567). `level` in tokens times 10^8. -/
structure Bucket where
  rate : Nat := 0
  burst : Nat := 0
  level : Nat := 0
  at_ : Nat := 0
  suppressed : Nat := 0
  firstAt : Nat := 0
  lastAt : Nat := 0
deriving DecidableEq, Repr

/-- The event recorder and the return state (17). -/
structure Evr where
  pending : List Rec
  pages : SMap Page
  /-- pages of the ring, the newest last and the next to be erased first, and the spares -/
  ring : List Nat
  spares : List Nat
  retired : BitVec 8
  nextSeq : W32
  readonly : Bool
  /-- EVR_CLEAR running: the old head and tail (17 R568) -/
  clearing : Option (W32 × W32)
  lost : W32
  /-- records dropped since the buffer filled, to be reported (17 R564) -/
  lostRun : Nat
  suppressed : W32
  buckets : SMap Bucket
  /-- EVR_RATE_SET limits by code: rate and burst -/
  overrides : SMap (Nat × Nat)
  /-- page erases since the last wear exchange (17 R569) -/
  eraseCount : Nat
  returnState : Bool
  returnRecord : List Byte
deriving DecidableEq, Repr

/-! ### 18 Service pins -/

/-- The service crossbar (18 R583 to R589). -/
structure Svp where
  vioPresent : Bool
  vio33 : Bool
  sleeping : Bool
  pins : SMap W32
  /-- sel written during the sleep state, by pin (18 R587); every entry stands -/
  deferred : SMap Byte
  /-- output level held at sleep entry, by pin -/
  heldLevel : SMap Bool
  /-- levels that the board gives the pins -/
  levels : SMap Bool
  /-- by signal code: the output level of a block that is gated (15 R522) -/
  gatedOut : SMap Bool
deriving DecidableEq, Repr

/-- The whole machine. -/
structure State where
  part : Part
  dev : Dev
  intake : Intake
  fab : Fabric
  coping : Coping
  cfg : Cfg
  cap : Cap
  bond : Bond
  lanes : Lanes
  grout : Grout
  engines : SMap Engine
  dram : Dram
  sec : Sec
  gst : Gst
  power : Power
  clk : Clk
  dbg : Dbg
  evr : Evr
  svp : Svp
  /-- high-word latches of register pairs, by the high word's offset in hub control space, or by
  2^24 + 2^16 e + offset for engine e's block; unlisted: no read of the low word since the reset (00 R7) -/
  latches : SMap (Option W32)
  /-- the device time base, 100 MHz ticks -/
  time : Nat
  /-- the model's own: the next free value (assumption log 3) -/
  freeNo : Nat
  /-- the model's own: commands waiting, first in, first out -/
  pending : List Instr
deriving DecidableEq, Repr

/-! ### The machine right after reset

Values with a log number are the model's own (assumption logs 1, 2, 6 to 9); the others are the spec's. -/

/-- The board and the part of the model: an ML3-52, grade 1, stepping 0xA0, no seam fault, one DDR5 DIMM of
x4 devices on each channel, blank boot devices (DESIGN CHOICE, assumption log 2). -/
def Part.board : Part :=
  { guestVariant := false, speedGrade := 1, stepping := 0xA0, fwVersion := 0, uid := 0, dieStepping := []
    strapWiring := [], guestTrains := false, seamFaults := [], cfgBoot := 0, clkFsel := 0, dbgSel := false
    dimms := (List.range 8).map fun c => (c, { count := 1 }), ospi := [], ospiFail := [] }

/-- The strap bytes of 01 T1.3, B0 to B7, C0 to C7, L0 to L7, H of the ML3-52. -/
def Dev.straps : List Byte :=
  let row : List Byte := [0, 1, 2, 3, 0x0C, 0x0D, 0x0E, 0x0F]
  row ++ row ++ row ++ [0]

/-- 01 T1.6: every die runs; the guest is not fitted. -/
def Dev.reset : Dev := { strap := Dev.straps, dies := [(25, { state := .absent })], role := false, hubFault := false }

/-- 02: the intake is closed until INTAKE_OPEN (R37); the ranks of T2.13; the round robins start at their
last source (R39, R64). -/
def Intake.reset : Intake :=
  { opened := false, ports := [], replies := [], last5 := 191, last6 := 63, lastPort := 7
    rankShadow := 0x24357766, rankActive := 0x24357766, rankPending := none, lock := none, busy := none
    table := [], counters := [], mbReq := [], mbExtent := [], msi := [] }

/-- 03, 04: no image, so no line toggles and every port is held; every bank is supplied (log 7). -/
def Fabric.reset : Fabric :=
  { les := [], high := [], before := {}, gates := [], io := [], groups := [], seamRegs := [], seamShadow := [], grpSel := 0, clkLive := 0, edgeAt := []
    vioPresent := 0xFFFFFFFF, vioLost := 0, ports := [], repairing := false, trainings := 1
    seamTrain := (List.range 10).map fun m => (m, 1) }

/-- 05: every byte 0 (R171), counters and controls 0 (T5.8). -/
def Coping.reset : Coping :=
  { mem := [], ports := [], scrubCtl := 0, scrubPos := [], scrubPasses := [], throttle := [], throttleTemp := []
    throttleSensor := [], seen := 0, ce := [], ue := [], poison := [], lastErr := [] }

/-- 06 T6.5. -/
def Cfg.reset : Cfg :=
  { session := none, load := none, bootFirst := none, bootAsked := none, lastStatus := 0, lastCause := 0
    lastKind := false, frames := 0, bytes := 0, dropped := 0, versions := [], region := 0, regionBrick := 0
    releaseStep := 64, bootPins := 0, loaded := 0, held := [], frameMem := [], identity := [] }

/-- 07 T7.10: every global line is a DUT line. -/
def Cap.reset : Cap :=
  { dutLines := 0xFFFFFFFFFFFFFFFF, stopped := 0, runLine := 0, edges := 0, drain := 0, phase := .idle
    lastStatus := 0, lastCause := 0, lastRestore := false, armed := none, capture := none, restore := none
    stopAt := none, stopBeat := none, stopDue := false, paused := 0, runCmds := [], domainOp := false, collectors := []
    triggers := [], trigOut := 0, trigOutAt := 0, peerBeats := [], afterHold := [] }

/-- 08 T8.6. -/
def Bond.reset : Bond :=
  { state := .unconfigured, idSource := false, pipelined := false, device := 0, beatLine := 0, domainId := 0
    members := 0, beat := 0, txBeat := 0, period := 0, sampleDelay := 0, presentMargin := 0, resumeMs := 0x7D0
    stretchBeats := 0, stretchNs := 0, overruns := 0, freezeCause := 0, freezeGroup := 0, freezeAt := 0
    hops := 0, dist := 0, locked := [], groups := [], windows := [], routes := [], seenOps := [], ops := []
    opSeq := 0, opArg := [], acted := [], relayLate := [], timeOffset := 0 }

/-- 09 T9.10 to T9.14: the lanes of the two controllers are in PCIe use. -/
def Lanes.reset : Lanes :=
  { lanes := (List.range 16 ++ (List.range 16).map (128 + ·)).map fun l => (l, { use := 2, rate := 15 })
    refs := [(0, { freqA := 1 }), (4, { freqA := 1 })], pcie := [], scans := [], waits := [] }

/-- 10 T10.7 to T10.10. -/
def Grout.reset : Grout :=
  { roundLocked := false, rounds := 0, dead := [], deadLast := 0, absorbed := 0, isoAnswers := 0, tmoAnswers := 0
    units := [], flows := [], slotSel := 0, probeSel := 0, probes := [], pstoreBase := 0, pstoreLen := 0
    pstoreNext := 0, pstoreLost := 0, inflight := [], responses := [], waiting := [], lossLogged := [] }

/-- 13: no channel is trained (T13.8), no region enabled. -/
def Dram.reset : Dram :=
  { mem := [], fills := [], epoch := 0, written := [], poisoned := [], installed := 0, chans := [], queues := [], regions := []
    alarm := 0, hits := 0, misses := 0, cache := [], trainCmd := none }

/-- 14: Blank, no key, the policies of Blank (T14.7), entry 0 of every table open (R483) (log 8: the part
as shipped). -/
def Sec.reset : Sec :=
  { stored := .blank, latch := false, firstCause := 0, latching := 0, seen := 0, policy := 0, keys := []
    session := none, acl := [], aclOpen := true, caches := [], stale := [], denials := [], lastDeny := 0
    lastDenyMaster := 0, sweeps := 0, disagreements := 0, lastUnit := 0, mismatched := [] }

/-- 14 T14.16. -/
def Gst.reset : Gst :=
  { table := [], tableOpen := true, isolated := false, rate := 0, burst := 0x40, tokens := 0, refillAt := 0
    violations := 0, absorbed := 0, stallUs := 0, lastViol := 0, withheld := [], answers := [], irqs := 0 }

/-- The defaults of 15 T15.9. -/
def LoopReg.initial (k : Nat) : LoopReg :=
  let mk (t hi lo : Byte) : LoopReg := { target := t, hi, lo, effTarget := t, effHi := hi, effLo := lo }
  if k = 0 then mk 8 190 110 else if k = 1 then mk 25 40 10 else if k = 2 then mk 0 63 0xC1 else mk 0 31 0

/-- 15 T15.10; what the sensors and supplies read is the model's (log 6). -/
def Power.reset : Power :=
  { phase := .starting, mode := .run, limiting := false, capNotMet := false, holdCause := 0, engDiv := 0
    genStep := 0, wakeEn := 0, cap := 0x6A4, islands := 0xFFFF, resetCause := .powerOn, resetDue := none
    resetPort := 0, dormantDue := false, holdDue := none, modeCmds := [], wakePending := none, resetNLow := false, thermtrip := false
    vin := 4800, current := 0, watts := 0, vbat := 3000, temps := [], high := []
    loops := (List.range 4).map fun k => (k, LoopReg.initial k)
    rtc := 0, rtcAt := 0, rtcMatch := 0, record := {}, wraps := [], retRoots := [], retRegions := [], poweringUp := []
    stretches := 0, supply := [], droop := 25 }

/-- 15 T15.12. -/
def Clk.reset : Clk :=
  { current := 3, primary := 0, alternate := 15, derated := true, standbyLocked := false, xoQualified := false
    fsel := 0, xoReadings := [], xoFailed := false, releasedAt := 0, mon := {}, monAlt := {}, switches := 0, gate := 0x3000, div0 := 0x030F0702
    div1 := 7, outSrc := 0xFF, outDiv := 0, pendingPrimary := none }

/-- 16 T16.2 to T16.6. -/
def Dbg.reset : Dbg :=
  { twoWire := false, instr := 2, testActive := false, refused := false, overrun := false, resetSeen := false
    accOp := 0, accAddr := 0, accData := 0, accStatus := 0, accBusy := false, accPoisoned := false
    accTag := 0, accesses := 0, captured := 0, shifted := 0, twAnswer := 0, twData := 0, twCheck := 0, boundary := []
    freeze := 0, xhalt := 0, lanesFrozen := false }

/-- 17: an empty store of 240 ring pages, the first to be written page 0, and 16 spares (R563). -/
def Evr.reset : Evr :=
  { pending := [], pages := []
    ring := (List.range 239).map (· + 1) ++ [0]
    spares := (List.range 16).map (240 + ·), retired := 0, nextSeq := 0, readonly := false
    clearing := none, lost := 0, lostRun := 0, suppressed := 0, buckets := [], overrides := [], eraseCount := 0
    returnState := false, returnRecord := [] }

/-- The reset value of SVP_PIN_i (18 T18.12). -/
def pinReset (i : Nat) : W32 :=
  BitVec.ofNat 32 (0x81000000 +
    if i < 6 then 0x68 + i else if i < 12 then 0xDA + (i - 6) else if i < 14 then 0xD6 + (i - 12)
    else if i = 14 then 0xD8 else 0xFF)

/-- 18: the pins at T18.12; VIO_SVC at 1.8 V and every pin low (log 7). Pins are listed where they differ
from `pinReset 15`. -/
def Svp.reset : Svp :=
  { vioPresent := true, vio33 := false, sleeping := false, pins := (List.range 15).map fun i => (i, pinReset i)
    deferred := [], heldLevel := [], levels := [], gatedOut := [] }

/-- The machine right after a power-on reset: straps sampled, memories filled, seams trained, the steward
not yet taking packets (15 R526). What the spec gives no value for: assumption logs 2, 6 to 9, 86 and 87. -/
def State.reset : State :=
  { part := Part.board, dev := Dev.reset, intake := Intake.reset, fab := Fabric.reset, coping := Coping.reset
    cfg := Cfg.reset, cap := Cap.reset, bond := Bond.reset, lanes := Lanes.reset, grout := Grout.reset
    engines := [], dram := Dram.reset, sec := Sec.reset, gst := Gst.reset, power := Power.reset
    clk := Clk.reset, dbg := Dbg.reset, evr := Evr.reset, svp := Svp.reset, latches := [], time := 0
    freeNo := 0, pending := [] }

end Sys2Proof.Machine
end

