-- ==== Sys2Proof/Machine/Ops.lean ====
section
/-!
DEFINITION. The operations every chapter shares: free values, device time, the event recorder's
pending buffer with its rate limits, the axes of the modes, replies and completion entries.
-/
namespace Sys2Proof.Machine
open Sys2Proof

/-! ### Free values and time -/

/-- The next free value (assumption log 3). -/
def State.freeVal (s : State) : W64 := Config.free s.freeNo

/-- Advances the counter behind the free values. -/
def State.stepFree (s : State) : State := { s with freeNo := s.freeNo + 1 }

/-- Device time reaches `t`, if it has not passed it (assumption log 5). -/
def State.passTo (s : State) (t : Nat) : State := { s with time := max s.time t }

/-- Device time goes on by `n` ticks of 10 ns. -/
def State.elapse (s : State) (n : Nat) : State := { s with time := s.time + n }

/-- The real-time counter now: 32,768 counts a second since `rtcAt`, modulo 2^48 (15 R506; assumption log 5). -/
def State.rtcNow (s : State) : BitVec 48 :=
  s.power.rtc + BitVec.ofNat 48 ((s.time - s.power.rtcAt) * 32768 / 100000000)

/-- Ticks of the 100 MHz time base in a millisecond. -/
def ticksPerMs : Nat := 100000

/-- Ticks in a second. -/
def ticksPerS : Nat := 100000000

/-! ### The event recorder's pending buffer (17 R560, R564, R566, R567) -/

/-- The codes whose home chapter names them rate-limited (R566). -/
def limitedCodes : List Nat :=
  [0x2001, 0x2002, 0x2010, 0x2030, 0x4120, 0x4201, 0x4202, 0x5040, 0x6001, 0x6012, 0x6101,
   0x7010, 0x7110, 0x8003, 0x8004, 0xA010, 0xA120]

/-- The limit in force for a code: rate and burst (R566). -/
def Evr.limitOf (e : Evr) (code : Nat) : Option (Nat × Nat) :=
  if 9 ≤ code / 4096 && (code / 4096 == 9 || code / 4096 == 15) then none
  else
    let o := SMap.look (0, 0) e.overrides code
    if o = (0, 0) then (if limitedCodes.contains code then some (8, 32) else none)
    else if o.1 = 0 then none else some o

/-- A bucket refilled up to time `now` under a limit; a bucket never used starts full (R566). -/
def Bucket.refill (b : Bucket) (rate burst now : Nat) : Bucket :=
  let level := if b.burst = 0 then burst * ticksPerS else b.level + b.rate * (now - b.at_)
  { b with rate := rate, burst := burst, level := min level (burst * ticksPerS), at_ := now }

/-- A record's length in bytes (R560). -/
def Rec.size (r : Rec) : Nat := 16 + 8 * r.slots.length

/-- Bytes that wait in the pending buffer. -/
def Evr.pendingBytes (e : Evr) : Nat := (e.pending.map Rec.size).foldl (· + ·) 0

/-- Puts a record in the pending buffer: dropped and counted while the log is read-only (R570) or the
16 KiB buffer is full (R564). -/
def Evr.push (e : Evr) (r : Rec) : Evr :=
  if e.readonly then { e with lost := satAdd e.lost 1 }
  else if e.pendingBytes + r.size > 16384 then
    { e with lost := satAdd e.lost 1, lostRun := e.lostRun + 1 }
  else { e with pending := e.pending ++ [r] }

/-- Raises a record at time `now`, under the rate limit of its code (R566). -/
def Evr.raise (e : Evr) (now : Nat) (r : Rec) : Evr :=
  match e.limitOf r.code.toNat with
  | none => e.push r
  | some (rate, burst) =>
    let b := (SMap.look {} e.buckets r.code.toNat).refill rate burst now
    if b.level ≥ ticksPerS then
      ({ e with buckets := SMap.put {} e.buckets r.code.toNat { b with level := b.level - ticksPerS } }).push r
    else
      let b' := { b with suppressed := b.suppressed + 1
                         firstAt := if b.suppressed = 0 then now else b.firstAt
                         lastAt := now }
      { e with buckets := SMap.put {} e.buckets r.code.toNat b', suppressed := satAdd e.suppressed 1 }

/-- Logs an event: its code and the values of its payload items, one slot each (R560). -/
def logEvent (code : Nat) (slots : List Nat) (s : State) : State :=
  let r : Rec := { code := BitVec.ofNat 16 code, slots := slots.map (BitVec.ofNat 64), time := s.time }
  { s with evr := s.evr.raise s.time r }

/-! ### The axes (14 R460 to R462) -/

/-- The security axis. -/
inductive SecAxis where
  | blank | opened | sealed | quarantine
deriving DecidableEq, Repr

/-- R461. -/
def State.secAxis (s : State) : SecAxis :=
  match s.sec.stored with
  | .blank => .blank
  | .opened => if s.sec.latch then .quarantine else .opened
  | .sealed => if s.sec.latch then .quarantine else .sealed

/-- The debug axis. -/
inductive DbgAxis where
  | detached | attached | halted | capture
deriving DecidableEq, Repr

/-- A capture drain or a restore is running (R462). -/
def Cap.draining (c : Cap) : Bool :=
  c.phase == .pause || c.phase == .lightDrain || c.phase == .fullDrain || c.phase == .restoreLoading

/-- Some engine is HALTED. -/
def State.anyHalted (s : State) : Bool := s.engines.any fun e => e.2.state == .halted

/-- The units that DBG_FREEZE freezes now (16 R553): those selected, while an engine is HALTED or CAP_STOPPED is not
0, the user clocks only while an engine is. -/
def State.frozen (s : State) : BitVec 7 :=
  if s.anyHalted then s.dbg.freeze &&& 0x7D
  else if s.cap.stopped != 0 then s.dbg.freeze &&& 0x3D else 0

/-- R462: the first matching row decides. -/
def State.dbgAxis (s : State) : DbgAxis :=
  if s.dbg.testActive then .capture
  else match s.sec.session with
    | none => .detached
    | some _ =>
      if s.cap.draining then .capture
      else if s.anyHalted || s.cap.stopped != 0 then .halted
      else .attached

/-! ### Dies -/

/-- The record of a die: 0-7 B, 8-15 C, 16-23 L, 24 H, 25 G. -/
def State.die (s : State) (i : Nat) : Die := SMap.look {} s.dev.dies i

/-- Writes a die's record. -/
def State.setDie (s : State) (i : Nat) (f : Die → Die) : State :=
  { s with dev := { s.dev with dies := SMap.upd {} s.dev.dies i f } }

/-- The die is held in reset or not fitted: absent (01 R17, R18, R29). -/
def State.dieAbsent (s : State) (i : Nat) : Bool := (s.die i).held || (s.die i).state == .absent

/-- The die's I/O is isolated or unpowered: held in reset, not fitted, or its islands are off (01 R17, T1.16). -/
def State.dieDark (s : State) (i : Nat) : Bool := s.dieAbsent i || (s.die i).state == .off

/-- The lane die that carries a PCIe controller's lanes (09 T9.1). -/
def ctlDie (c : Nat) : Nat := if c = 0 then 16 else 20

/-- The die serves: RUNNING (01 T1.16). -/
def State.dieRuns (s : State) (i : Nat) : Bool := (s.die i).state == .running && !(s.die i).held

/-! ### Grout units: 0-7 bricks, 8-15 lane dies, 16 the guest (10 R359) -/

/-- A unit's fence state. -/
def State.unit (s : State) (u : Nat) : GUnit := SMap.look {} s.grout.units u

/-- Writes a unit's fence state. -/
def State.setUnit (s : State) (u : Nat) (f : GUnit → GUnit) : State :=
  { s with grout := { s.grout with units := SMap.upd {} s.grout.units u f } }

/-- The dies of a unit: a brick and its coping die, a lane die, the guest. -/
def unitDies (u : Nat) : List Nat :=
  if u < 8 then [u, u + 8] else if u < 16 then [u + 8] else [25]

/-! ### Engines -/

/-- Engine `e`. -/
def State.eng (s : State) (e : Nat) : Engine := SMap.look {} s.engines e

/-- Writes engine `e`. -/
def State.setEng (s : State) (e : Nat) (f : Engine → Engine) : State :=
  { s with engines := SMap.upd {} s.engines e f }

/-! ### Status codes (02 T2.8) -/

namespace Status
/-- OK. -/
def ok : BitVec 16 := 0x0000
/-- ACCEPTED. -/
def accepted : BitVec 16 := 0x0001
/-- BACKOFF. -/
def backoff : BitVec 16 := 0x0002
/-- BAD_OPCODE. -/
def badOpcode : BitVec 16 := 0x0100
/-- BAD_LENGTH. -/
def badLength : BitVec 16 := 0x0101
/-- BAD_PARAM. -/
def badParam : BitVec 16 := 0x0102
/-- BAD_STATE. -/
def badState : BitVec 16 := 0x0103
/-- AUTH_FAIL. -/
def authFail : BitVec 16 := 0x0200
/-- COUNTER_STALE. -/
def counterStale : BitVec 16 := 0x0201
/-- NOT_IN_MODE. -/
def notInMode : BitVec 16 := 0x0202
/-- LOCKED_OUT. -/
def lockedOut : BitVec 16 := 0x0203
/-- RETIRED. -/
def retired : BitVec 16 := 0x0300
/-- TIMEOUT. -/
def timeout : BitVec 16 := 0x0301
/-- ISOLATED. -/
def isolated : BitVec 16 := 0x0302
/-- POISONED_DATA. -/
def poisonedData : BitVec 16 := 0x0303
/-- IMAGE_WRONG_DEVICE. -/
def imageWrongDevice : BitVec 16 := 0x0400
/-- IMAGE_TRUNCATED. -/
def imageTruncated : BitVec 16 := 0x0401
/-- IMAGE_AUTH. -/
def imageAuth : BitVec 16 := 0x0402
/-- IMAGE_MASK. -/
def imageMask : BitVec 16 := 0x0403
/-- INTEGRITY. -/
def integrity : BitVec 16 := 0x0500
/-- COUNTER_EXHAUSTED. -/
def counterExhausted : BitVec 16 := 0x0501
/-- LOG_FULL_READONLY. -/
def logFullReadonly : BitVec 16 := 0x0600
end Status

/-! ### Replies (02 R42, R48, R49) -/

/-- The first 10 header bytes and the opcode of a reply (T2.6), then 4 zero bytes. -/
def Reply.header (r : Reply) : List Byte :=
  leBytes 2 r.tag.toNat ++ leBytes 2 r.status.toNat ++ leBytes 4 r.data.length ++
  leBytes 2 (1 + 2 * b2n r.trailer.isSome + 4 * b2n r.notification + 8 * b2n r.logRo) ++
  leBytes 2 r.opcode.toNat ++ leBytes 4 0

/-- The whole reply packet as bytes (R48). -/
def Reply.bytes (r : Reply) : List Byte :=
  r.header ++ r.data ++
  match r.trailer with
  | none => []
  | some (ctr, tag) => leBytes 8 ctr.toNat ++ leBytes 8 tag.toNat

/-- Builds a reply; `auth` is the counter consumed and the key that checked the request (R49). -/
def mkReply (s : State) (tag status opcode : BitVec 16) (data : List Byte) (notification : Bool)
    (auth : Option (W64 × List Byte)) : Reply :=
  let bare : Reply := { tag, status, opcode, data, notification, logRo := s.evr.readonly, trailer := none }
  match auth with
  | none => bare
  | some (ctr, key) =>
    let r := { bare with trailer := some (ctr, 0) }
    let mac := Crypto.cmac key (r.header ++ data ++ leBytes 8 ctr.toNat)
    { r with trailer := some (ctr, BitVec.ofNat 64 (leNat (mac.take 8))) }

/-- The key of a port and source in the maps of reply spaces. -/
def srcKey (port : Fin 8) (source : BitVec 16) : Nat := port.val * 65536 + source.toNat

/-- The reply space of a port and source. -/
def State.space (s : State) (port : Fin 8) (source : BitVec 16) : ReplySpace :=
  SMap.look {} s.intake.replies (srcKey port source)

/-- Writes the reply space of a port and source. -/
def State.setSpace (s : State) (port : Fin 8) (source : BitVec 16) (f : ReplySpace → ReplySpace) : State :=
  { s with intake := { s.intake with replies := SMap.upd {} s.intake.replies (srcKey port source) f } }

/-- A reply or notification at its port: into the free space, else it waits there (R42). req_busy clears with the reply
also where it has to wait (assumption log 77). -/
def ReplySpace.add (sp : ReplySpace) (r : Reply) : ReplySpace :=
  let busy := if r.notification then sp.reqBusy else false
  match sp.current with
  | none => { sp with current := some r, reqBusy := busy }
  | some _ => { sp with waiting := sp.waiting ++ [r], reqBusy := busy }

/-- A PCIe controller signals message-signalled interrupt vector 0 (R42). -/
def signalMsi (port : Fin 8) (s : State) : State :=
  if port.val < 2 then { s with intake := { s.intake with msi := SMap.upd 0 s.intake.msi port.val (· + 1) } }
  else s

/-- A reply or notification reaches its port: into the free space, else it waits there (R42, R63). -/
def postReply (port : Fin 8) (source : BitVec 16) (r : Reply) (s : State) : State :=
  let free := (s.space port source).current.isNone
  let s := s.setSpace port source (·.add r)
  if free then signalMsi port s else s

/-! ### Completion entries (02 R61 to R63) -/

/-- Whether an entry answers to this tag of this port and source. -/
def Completion.isFor (c : Completion) (port : Fin 8) (source tag : BitVec 16) : Bool :=
  c.port == port && c.source == source && c.tag == tag

/-- The entry of a port, source and tag. -/
def State.entry (s : State) (port : Fin 8) (source tag : BitVec 16) : Option Completion :=
  s.intake.table.find? (·.isFor port source tag)

/-- Releases the entry of a port, source and tag. -/
def releaseEntry (port : Fin 8) (source tag : BitVec 16) (s : State) : State :=
  { s with intake := { s.intake with table := s.intake.table.filter fun c => !c.isFor port source tag } }

/-- Rewrites the entry of a port, source and tag. -/
def updEntry (port : Fin 8) (source tag : BitVec 16) (f : Completion → Completion) (s : State) : State :=
  { s with intake := { s.intake with
      table := s.intake.table.map fun c => if c.isFor port source tag then f c else c } }

/-- A background command finishes: its entry takes the final status and data (R62); where the request
had notify set, the notification is posted, and its delivery releases the entry (R63). -/
def finishEntry (port : Fin 8) (source tag status : BitVec 16) (data : List Byte) (s : State) : State :=
  updEntry port source tag
    (fun c => { c with done := true, status, progress := 100, data, doneAt := s.time }) s

/-! ### The register-pair latch (00 R7) -/

/-- The latch of the pair whose high word has key `k`: before the first read of the low word it holds the
high word's reset value. -/
def State.latch (s : State) (k : Nat) (reset : W32) : W32 := (SMap.look none s.latches k).getD reset

/-- A read of a low word latches the high word as it stands. -/
def State.setLatch (s : State) (k : Nat) (v : W32) : State :=
  { s with latches := SMap.put none s.latches k (some v) }

/-! ### The service pins' registers (18 T18.11, T18.12) -/

/-- SVP_PIN_i. -/
def Svp.pin (v : Svp) (i : Nat) : W32 := SMap.look (pinReset 15) v.pins i

/-- Stores SVP_PIN_i. -/
def Svp.setPin (v : Svp) (i : Nat) (w : W32) : Svp := { v with pins := SMap.put (pinReset 15) v.pins i w }

/-- The signal a pin selects: reserved codes decode as none (T18.3). -/
def Svp.sel (v : Svp) (i : Nat) : Nat :=
  let c := (v.pin i).toNat % 256
  if c ≥ 0xE0 then 0xFF else c

/-! ### Input signals of the crossbar (18 R584, R588) -/

/-- The inactive level: 1 for the signals whose names end in _N and for RX, SCL, SDA and MOSI. -/
def inactiveLevel (c : Nat) : Bool :=
  if c < 0x20 then c % 8 != 0
  else if c < 0x28 then true
  else if c < 0x68 then 10 ≤ (c - 0x28) % 16
  else c = 0x69 || c = 0x6A

/-- The lowest-numbered pin that selects a signal. -/
def Svp.pinOf (v : Svp) (c : Nat) : Option Nat := (List.range 96).find? fun i => v.sel i == c

/-- The level of an input signal. -/
def Svp.signal (v : Svp) (c : Nat) : Bool :=
  match v.pinOf c with
  | some i => if v.vioPresent then SMap.look false v.levels i else inactiveLevel c
  | none => inactiveLevel c

/-- The BND_ID straps (08 R262): none where no pin selects one of them. -/
def Svp.bndId (v : Svp) : Option Nat :=
  if (List.range 6).all fun i => (v.pinOf (0xDA + i)).isSome then
    some (bitsNat ((List.range 6).map fun i => v.signal (0xDA + i)))
  else none

end Sys2Proof.Machine
end

