-- ==== Sys2Proof/Machine/FabricOps.lean ====
section
/-!
DEFINITION. The fabric's shared operations: configuration fields read out of the frames (03 R77, 06
R182), the logic element as a function of its configuration and pins (03 R78, R84, R91, R94 to R97),
the regions and their staged release (06 R201), seam groups and their repair (04 R115 to R122), user
I/O pins (04 R136) and the held fabric ports (04 R144).
-/
namespace Sys2Proof

/-- The tile of an LE inside its course. -/
def LeAddr.tile (x : LeAddr) : Nat := x.u.val % 4 + 4 * (x.v.val % 4)

/-- The tile of an LE. -/
def LeAddr.tileAddr (x : LeAddr) : TileAddr := { brick := x.brick, u := x.u, v := x.v }

/-- The tile inside its course. -/
def TileAddr.index (t : TileAddr) : Nat := t.u.val % 4 + 4 * (t.v.val % 4)

/-- LE `k` of a tile. -/
def TileAddr.le (t : TileAddr) (k : Fin 16) : LeAddr := { brick := t.brick, u := t.u, v := t.v, k }

/-- The number of a tile in the part. -/
def TileAddr.key (t : TileAddr) : Nat := (t.brick.val * 640 + t.v.val) * 640 + t.u.val

/-- The key of an LE in `fab.les`. -/
def LeAddr.key (x : LeAddr) : Nat := ((x.brick.val * 640 + x.v.val) * 640 + x.u.val) * 16 + x.k.val

/-- The number of a group: (2 seam + dir) 1280 + group. -/
def SeamGroup.key (g : SeamGroup) : Nat := (2 * g.seam.val + g.dir.val) * 1280 + g.group.val

/-- The two bricks of a seam (T4.3), west or south first. -/
def seamBricks (seam : Nat) : Nat × Nat :=
  if seam < 3 then (seam, seam + 1) else if seam < 6 then (seam + 1, seam + 2) else (seam - 6, seam - 2)

/-- The receiving course of a group: brick, a, b (R110). -/
def SeamGroup.rxCourse (g : SeamGroup) : Nat × Nat × Nat :=
  let (p, q) := seamBricks g.seam.val
  let k := g.group.val / 8
  let east := g.seam.val < 6
  if g.dir.val = 0 then (q, if east then 0 else k, if east then k else 0)
  else (p, if east then 159 else k, if east then k else 159)

end Sys2Proof

namespace Sys2Proof.Machine
open Sys2Proof

/-! ### Coordinates (01 R20, R23 to R26) -/

/-- The remap of a die-local coordinate under orient 1 (01 T1.4), `last` being its highest value. -/
def remap (orient : Bool) (last v : Nat) : Nat := if orient then last - v else v

/-- The remap of an edge port, N E S W as 0 to 3. -/
def remapEdge (orient : Bool) (e : Fin 4) : Fin 4 := if orient then e + 2 else e

/-- R23: the brick of a global tile. -/
def brickOfTile (tx ty : Nat) : Nat := 4 * (ty / 640) + tx / 640

/-- R24: the router that serves course (cx, cy). -/
def routerOfCourse (cx cy : Nat) : Nat × Nat := (4 + cx / 20, cy / 20)

/-- R24: the brick a router lies on, none for the hub's. -/
def brickOfRouter (x y : Nat) : Option Nat := if x < 4 then none else some (4 * (y / 8) + (x - 4) / 8)

/-- R25: the engines of a hub router. -/
def engineAt (x y k : Nat) : Nat := 3 * (4 * y + x) + k

/-! ### Configuration frames (06 R182) -/

/-- The key in `cfg.frameMem` of byte `b` of frame `f` of brick `n` (8: the hub clock frames). -/
def frameKey (n f b : Nat) : Nat := (n * 204832 + f) * 1152 + b

/-- A bit of the configuration, `off` bits after the start of frame `f0`. -/
def State.cfgBit (s : State) (n f0 off : Nat) : Bool :=
  (SMap.look 0 s.cfg.frameMem (frameKey n (f0 + off / 9216) (off % 9216 / 8))).getLsbD (off % 8)

/-- A configuration field of `w` bits of element `elem` of course (a, b) of brick `n`. Elements of a
course: 16 t + k the LE k of tile t; 256 + t the tile; 272 the slab; 273 the fabric port; 300 +
8 (2 seam + dir) + g the seam group; 500 + cell the I/O cells. Positions: assumption log 10. -/
def State.courseField (s : State) (n a b elem fld w : Nat) : Nat :=
  bitsNat ((List.range w).map fun i => s.cfgBit n (8 * (160 * b + a)) (Config.fieldBit elem fld i))

/-- The listed bytes of some frames of brick `n` (8: the hub clock frames), by their place from frame `f0` on. -/
def State.framesOf (s : State) (n f0 count : Nat) : List (Nat × Byte) :=
  (s.cfg.frameMem.filter fun e => frameKey n f0 0 ≤ e.1 && e.1 < frameKey n (f0 + count) 0).map
    fun e => (e.1 - frameKey n f0 0, e.2)

/-- The courses of brick `n` whose frames list a byte, as 160 b + a; every field of any other course is 0. -/
def State.listedCourses (s : State) (n : Nat) : List Nat :=
  ((s.framesOf n 0 204800).map fun e => e.1 / 9216).eraseDups

/-- A field value marked reserved is decoded as 0 (03 R77). -/
def unreserve (reserved v : Nat) : Nat := if v ≥ reserved then 0 else v

/-! ### The logic element (03 T3.3) -/

/-- An LE's configuration, decoded. -/
structure LeCfg where
  tt : W64 := 0
  mode : Nat := 0
  split : Bool := false
  cascade : Bool := false
  carryEn : Bool := false
  genX0 : Bool := false
  cinSel : Nat := 0
  d0 : Nat := 0
  d1 : Nat := 0
  /-- the tile clock of each flip-flop is tclk1 -/
  clk0 : Bool := false
  clk1 : Bool := false
  rst0 : Nat := 0
  rst1 : Nat := 0
  rstVal0 : Bool := false
  rstVal1 : Bool := false
  init0 : Bool := false
  init1 : Bool := false
deriving DecidableEq, Repr

/-- A tile's own fields (03 T3.5, 04 T4.5). -/
structure TileCfg where
  aAsync : Bool := false
  bAsync : Bool := false
  aHold : Bool := false
  bHold : Bool := false
  src0 : Nat := 0
  src1 : Nat := 0
  gate0 : Bool := false
  gate1 : Bool := false
  inv0 : Bool := false
  inv1 : Bool := false
  cinSel : Nat := 0
  wide : Bool := false
deriving DecidableEq, Repr

/-- The configuration of an LE: srl_cascade of LE 0 is decoded as 0 (R97), and the carry into LE 0 is c_0 whatever
its cin_sel says (R91, R94; assumption log 64). -/
def State.leCfg (s : State) (x : LeAddr) : LeCfg :=
  let f := s.courseField x.brick (x.u.val / 4) (x.v.val / 4) (16 * x.tile + x.k.val)
  { tt := BitVec.ofNat 64 (f 0 64), mode := f 1 2, split := f 2 1 == 1
    cascade := f 3 1 == 1 && x.k.val != 0
    carryEn := f 4 1 == 1, genX0 := f 5 1 == 1, cinSel := if x.k.val = 0 then 0 else f 6 2
    d0 := unreserve 3 (f 7 2), d1 := unreserve 3 (f 8 2)
    clk0 := f 9 1 == 1, clk1 := f 10 1 == 1
    rst0 := unreserve 3 (f 11 2), rst1 := unreserve 3 (f 12 2)
    rstVal0 := f 13 1 == 1, rstVal1 := f 14 1 == 1, init0 := f 15 1 == 1, init1 := f 16 1 == 1 }

/-- A clock selection of seven bits: the reserved codes 88 to 126 are decoded as 0 (04 T4.5, R77). -/
def clockSel (v : Nat) : Nat := if 88 ≤ v ∧ v ≠ 127 then 0 else v

/-- A field of a tile. -/
def State.tileField (s : State) (t : TileAddr) (fld w : Nat) : Nat :=
  s.courseField t.brick (t.u.val / 4) (t.v.val / 4) (256 + t.index) fld w

/-- A tile's fields, decoded. -/
def State.tileCfg (s : State) (t : TileAddr) : TileCfg :=
  let f := s.tileField t
  { aAsync := f 0 1 == 1, bAsync := f 1 1 == 1, aHold := f 2 1 == 1, bHold := f 3 1 == 1
    src0 := clockSel (f 4 7), src1 := clockSel (f 5 7), gate0 := f 6 1 == 1, gate1 := f 7 1 == 1
    inv0 := f 8 1 == 1, inv1 := f 9 1 == 1, cinSel := f 10 2, wide := f 11 1 == 1 }

/-- The source that a sink of the local mortar selects (R88). -/
inductive PinSrc where
  | input (i : Nat)
  | le (k : Fin 16) (out : Nat)
  | tco
  | const (v : Bool)
deriving DecidableEq, Repr

/-- Source `i` of the 179 of R88: the 96 tile inputs, the 80 LE outputs, tco, and the constants 0 and 1. -/
def pinSrcOf (i : Nat) : PinSrc :=
  if i < 96 then .input i
  else if i < 176 then .le (Fin.ofNat 16 ((i - 96) / 5)) ((i - 96) % 5)
  else if i = 176 then .tco else .const (i == 178)

/-- The source of sink `k` of a tile's local mortar: sinks 11 k + i are the pins of LE k in the order of T3.2, 176 to 185
tr_a, tr_b, we, wa[5:0] and ci (R88). None: unconnected. The selection is 0 for unconnected, else 1 + the source's number
(assumption log 10). -/
def State.sinkSrc (s : State) (t : TileAddr) (k : Nat) : Option PinSrc :=
  let v := unreserve 180 (s.tileField t (12 + k) 8)
  if v = 0 then none else some (pinSrcOf (v - 1))

/-- The source of one of the 64 outputs a tile drives into course mortar: an LE output or tco (R88). -/
def State.tileOutSrc (s : State) (t : TileAddr) (i : Fin 64) : PinSrc :=
  pinSrcOf (96 + unreserve 81 (s.tileField t (198 + i.val) 7))

/-- Output o6 of an LE holding the bits `mem` (T3.4). -/
def LeCfg.o6 (c : LeCfg) (mem : W64) (i : BitVec 6) : Bool :=
  let upper := mem.getLsbD (32 + i.toNat % 32)
  if c.mode = 0 then mem.getLsbD i.toNat
  else if c.mode = 1 then upper
  else if c.split then upper else mem.getLsbD i.toNat

/-- Output o5 of an LE holding the bits `mem` (T3.4). -/
def LeCfg.o5 (_c : LeCfg) (mem : W64) (i : BitVec 6) : Bool := mem.getLsbD (i.toNat % 32)

/-- The propagate of R91. -/
def LeCfg.propagate (c : LeCfg) (mem : W64) (i : BitVec 6) : Bool := if c.carryEn then c.o6 mem i else true

/-- The generate of R91. -/
def LeCfg.generate (c : LeCfg) (mem : W64) (i : BitVec 6) (x0 : Bool) : Bool :=
  if c.genX0 then x0 else c.o5 mem i

/-- The carry into an LE (R91): the chain's or the tile's ci as `cin`, or the constant of cin_sel. -/
def LeCfg.carryIn (c : LeCfg) (cin : Bool) : Bool :=
  if c.cinSel = 1 then false else if c.cinSel = 2 then true else cin

/-- The carry out of an LE (R91). -/
def carryOut (p g c : Bool) : Bool := if p then c else g

/-- The carries of a tile in ripple mode (R91): c_0 and after each of the LEs, south to north. -/
def rippleCarries : List (Bool × Bool) → Bool → List Bool
  | [], c => [c]
  | (p, g) :: pgs, c => c :: rippleCarries pgs (carryOut p g c)

/-- The lookahead terms of wide mode (R94): the group generate G_k after each LE. -/
def wideGenerate : List (Bool × Bool) → Bool → Bool
  | [], acc => acc
  | (p, g) :: pgs, acc => wideGenerate pgs ((!p && g) || (p && acc))

/-- The carry out of a tile in wide mode (R94): c_16 = G_15 or (P and c_0). -/
def wideCarryOut (pgs : List (Bool × Bool)) (c0 : Bool) : Bool :=
  wideGenerate pgs false || (pgs.all (·.1) && c0)

/-- R92: the carry into tile (tx, ty) from the south exists inside one brick only. -/
def tileCarryIn (sel ty : Nat) (south ci : Bool) : Bool :=
  if sel = 1 then false else if sel = 2 then true else if sel = 3 then ci
  else if ty % 640 = 0 then false else south

/-- The priority of T3.6. `held`: write enables not released. `async`, `sync`: an asserted line of that
kind. Rank 5 takes `d` at an active edge with the clock enable. -/
def ffNext (held async restore edge sync ce : Bool) (init rstVal shadow d q : Bool) : Bool :=
  if held then init
  else if async then rstVal
  else if restore then shadow
  else if edge && sync then rstVal
  else if edge && ce then d
  else q

/-! ### Regions and the staged release (06 R191, R195, R199 to R201) -/

/-- A region in reset covers course (a, b) of brick n. -/
def Region.covers (r : Region) (n a b : Nat) : Bool :=
  match r with
  | .bricks m => m.getLsbD n
  | .rect k aF bF aL bL => k.val == n && aF ≤ a && a ≤ aL && bF ≤ b && b ≤ bL

/-- The release step a course has reached: 0 in reset or without an image; 1 outputs and ports enabled;
2 write enables released; 3 user resets released (06 R201). -/
def State.stage (s : State) (n a b : Nat) : Nat :=
  match s.cfg.held.find? (·.covers n a b) with
  | some r =>
    match s.cfg.load with
    | some l => if l.region = some r then l.released else 0
    | none => 0
  | none => if s.cfg.loaded.getLsbD n then 3 else 0

/-- The stage of an LE's course. -/
def State.leStage (s : State) (x : LeAddr) : Nat := s.stage x.brick (x.u.val / 4) (x.v.val / 4)

/-- R85: a tile reset line is held by its startup_hold option until the user-reset release step. -/
def lineLevel (hold : Bool) (stage : Nat) (src : Bool) : Bool := src || (hold && stage < 3)

/-- The bricks with some region in reset: CFG_STATE.held. -/
def State.heldBricks (s : State) : Nat :=
  bitsNat ((List.range 8).map fun n => s.cfg.held.any fun r =>
    match r with | .bricks m => m.getLsbD n | .rect k _ _ _ _ => k.val == n)

/-! ### LE storage -/

/-- An LE's record. -/
def State.le (s : State) (x : LeAddr) : Le := SMap.look {} s.fab.les x.key

/-- Writes an LE's record. -/
def State.setLe (s : State) (x : LeAddr) (f : Le → Le) : State :=
  { s with fab := { s.fab with les := SMap.upd {} s.fab.les x.key f } }

/-- The 64 bits an LE holds: lut_tt, or its memory (R78). -/
def State.leMem (s : State) (x : LeAddr) : W64 := (s.leCfg x).tt ^^^ (s.le x).mem

/-- The value of a flip-flop of an LE. -/
def State.ffVal (s : State) (x : LeAddr) (ff1 : Bool) : Bool :=
  if ff1 then (s.leCfg x).init1 != (s.le x).ff1 else (s.leCfg x).init0 != (s.le x).ff0

/-- The value of a flip-flop's shadow. -/
def State.ffShadow (s : State) (x : LeAddr) (ff1 : Bool) : Bool :=
  if ff1 then (s.leCfg x).init1 != (s.le x).sh1 else (s.leCfg x).init0 != (s.le x).sh0

/-- Stores the value of a flip-flop. -/
def State.putFf (s : State) (x : LeAddr) (ff1 v : Bool) : State :=
  let c := s.leCfg x
  s.setLe x fun l => if ff1 then { l with ff1 := c.init1 != v } else { l with ff0 := c.init0 != v }

/-- Stores the 64 bits of an LE. -/
def State.putLeMem (s : State) (x : LeAddr) (m : W64) : State :=
  let c := s.leCfg x
  s.setLe x fun l => { l with mem := c.tt ^^^ m }

/-- R96: the LUT RAM write of `x0`, `x1` at `wa`. -/
def lutRamWrite (split : Bool) (mem : W64) (wa : BitVec 6) (x0 x1 : Bool) : W64 :=
  if split then setBit (setBit mem (wa.toNat % 32) x0) (32 + wa.toNat % 32) x1
  else setBit mem wa.toNat x0

/-- R97: one shift of a shift-register LE; `d` is the shift input. -/
def srlShift (split : Bool) (mem : W64) (d x1 : Bool) : W64 :=
  let m := setBit (mem <<< 1) 0 d
  if split then setBit m 32 x1 else m

/-! ### Seams (04) -/

/-- R113: a seam is inactive when either brick is held in reset under R17 or R18. -/
def State.seamInactive (s : State) (seam : Nat) : Bool :=
  let (p, q) := seamBricks seam
  s.dieAbsent p || s.dieAbsent q || (s.die p).state == .off || (s.die q).state == .off

/-- A field of a seam group: 0 seam_reg_en (32), 1 seam_clk_sel (6) (R111). -/
def State.groupField (s : State) (g : SeamGroup) (fld w : Nat) : Nat :=
  let (n, a, b) := g.rxCourse
  s.courseField n a b (300 + 8 * (2 * g.seam.val + g.dir.val) + g.group.val % 8) fld w

/-- At least one wire of the group is registered. -/
def State.groupRegistered (s : State) (g : SeamGroup) : Bool := s.groupField g 0 32 != 0

/-- A group's record. -/
def State.group (s : State) (g : SeamGroup) : Group := SMap.look {} s.fab.groups g.key

/-- Writes a group's record. -/
def State.setGroup (s : State) (g : SeamGroup) (f : Group → Group) : State :=
  { s with fab := { s.fab with groups := SMap.upd {} s.fab.groups g.key f } }

/-- The eye centre that its seam's last training measured in a group (R120). -/
def State.eyeCentre (s : State) (g : SeamGroup) : BitVec 5 :=
  Config.eyeCentre (SMap.look 0 s.fab.seamTrain g.seam.val) g.key

/-- The sampling code of a group: the eye centre its training measured, moved by the loop (R120, R121). -/
def State.sampleCode (s : State) (g : SeamGroup) : BitVec 5 :=
  BitVec.ofInt 5 (max 0 (min 31 ((s.eyeCentre g).toNat + (s.group g).move)))

/-- A group's spare can carry its monitor: neither used nor faulty (R122). -/
def Group.spareFree (x : Group) : Bool := !x.spareUsed && !x.spareFaulty

/-- R122: the group whose monitor this group uses: its own, or the lowest-numbered of the same edge
course and direction with a free spare and the same seam clock. -/
def State.monitorOf (s : State) (g : SeamGroup) : Option (Fin 1280) :=
  if (s.group g).spareFree then some g.group
  else
    let base := 8 * (g.group.val / 8)
    ((List.range 8).map fun i => (Fin.ofNat 1280 (base + i))).find? fun h =>
      let o := { g with group := h }
      h != g.group && (s.group o).spareFree && s.groupField o 1 6 == s.groupField g 1 6

/-- Repair of one group whose faulty working wires are `faults` (R116, R117): the lowest wire not yet
dealt with goes onto a free spare, every other one is marked unrepairable. -/
def Group.repair (x : Group) (faults : List Nat) : Group × Option Nat × List Nat :=
  let fresh := faults.filter fun w =>
    !(x.spareUsed && x.repaired.toNat == w) && !x.defects.getLsbD w
  match fresh with
  | [] => (x, none, [])
  | w :: ws =>
    if x.spareFree then
      ({ x with spareUsed := true, repaired := BitVec.ofNat 5 w
                defects := ws.foldl (fun d i => setBit d i true) x.defects }, some w, ws)
    else ({ x with defects := fresh.foldl (fun d i => setBit d i true) x.defects }, none, fresh)

/-- The faults the board's silicon has in a group: working wires, and whether the spare is faulty. -/
def State.groupFaults (s : State) (g : SeamGroup) : List Nat × Bool :=
  let m := SMap.look 0 s.part.seamFaults g.key
  (bitList m.toNat 32, m.getLsbD 32)

/-- The group's sampling code is frozen (R122): a registered group without a monitor. -/
def State.groupFrozen (s : State) (g : SeamGroup) : Bool := s.groupRegistered g && (s.monitorOf g).isNone

/-- A group that has become frozen is logged, once (R122). -/
def noteFrozen (g : SeamGroup) (s : State) : State :=
  if s.groupFrozen g && !(s.group g).frozenSeen then
    logEvent 0x4104 [g.seam.val, g.dir.val, g.group.val, (s.sampleCode g).toNat] (s.setGroup g fun x => { x with frozenSeen := true })
  else s

/-- The groups of the edge course of `g` whose monitor a lost spare may have been. -/
def noteCourse (g : SeamGroup) (s : State) : State :=
  (List.range 8).foldl (fun s i => noteFrozen { g with group := Fin.ofNat 1280 (8 * (g.group.val / 8) + i) } s) s

/-- Tests one group and repairs it; `cause` 0 training, 1 command (R115 to R117, R148). -/
def repairGroup (cause : Nat) (g : SeamGroup) (s : State) : State × Nat × Nat × Nat :=
  let (faults, spareBad) := s.groupFaults g
  let x0 := s.group g
  let newBad := spareBad && !x0.spareFaulty && !x0.spareUsed
  let x := if newBad then { x0 with spareFaulty := true } else x0
  let s := if newBad then logEvent 0x4103 [g.seam.val, g.dir.val, g.group.val] s else s
  let (x', rep, bad) := x.repair faults
  let s := s.setGroup g fun _ => x'
  let s := match rep with
    | some w => logEvent 0x4101 [g.seam.val, g.dir.val, g.group.val, w, cause] s
    | none => s
  let s := bad.foldl (fun s w => logEvent 0x4102 [g.seam.val, g.dir.val, g.group.val, w] s) s
  let s := noteCourse g s
  (s, b2n rep.isSome + bad.length, b2n rep.isSome, bad.length)

/-- The group of a number. -/
def groupOfKey (k : Nat) : SeamGroup :=
  { seam := Fin.ofNat 10 (k / 2560), dir := Fin.ofNat 2 (k / 1280), group := Fin.ofNat 1280 k }

/-- Training of the seams that `on` holds: earlier repairs are gone (R118), the sampling codes are set anew, and every
faulty group of an active seam is repaired (R115). -/
def trainSeamsOf (on : Nat → Bool) (s : State) : State :=
  let t := s.fab.trainings + 1
  let s := { s with fab := { s.fab with
    groups := s.fab.groups.filter (fun e => !on (groupOfKey e.1).seam.val), trainings := t
    seamTrain := SMap.mapAll 0 s.fab.seamTrain fun m x => if on m then t else x } }
  s.part.seamFaults.foldl (fun s e =>
    let g := groupOfKey e.1
    if !on g.seam.val || s.seamInactive g.seam.val then s else (repairGroup 0 g s).1) s

/-- Seam training at a power-on or full reset (R115). -/
def trainSeams (s : State) : State := trainSeamsOf (fun _ => true) s

/-- The seam register of a wire. -/
def State.seamReg (s : State) (g : SeamGroup) (wire : Nat) : Bool :=
  (SMap.look 0 s.fab.seamRegs g.key).getLsbD wire

/-- Stores a seam register. -/
def State.putSeamReg (s : State) (g : SeamGroup) (wire : Nat) (v : Bool) : State :=
  { s with fab := { s.fab with seamRegs := SMap.upd 0 s.fab.seamRegs g.key (setBit · wire v) } }

/-! ### Fabric ports (04 R138, R144) -/

/-- The 16 courses that a fabric port's signals belong to (R138): port p = 8 j + i. -/
def portCourses (p : Nat) : List (Nat × Nat) :=
  let i := p % 8
  let j := p / 8
  (List.range 16).map fun t => (20 * i + 8 + t % 4, 20 * j + 8 + t / 4)

/-- R144: the port q = 64 n + p is held: its brick is in reset or has no image, one of its courses lies
in a region whose outputs are not released, or the part is in Quarantine (14 R471). -/
def State.portHeld (s : State) (q : Nat) : Bool :=
  let n := q / 64
  s.dieAbsent n || s.secAxis == .quarantine ||
    (portCourses (q % 64)).any fun c => s.stage n c.1 c.2 = 0

/-- A fabric port. -/
def State.port (s : State) (q : Nat) : FabPort := SMap.look {} s.fab.ports q

/-- Writes a fabric port. -/
def State.setPort (s : State) (q : Nat) (f : FabPort → FabPort) : State :=
  { s with fab := { s.fab with ports := SMap.upd {} s.fab.ports q f } }

/-- The port's port_clk_sel (R138). -/
def State.portClkSel (s : State) (q : Nat) : Nat :=
  let (a, b) := (portCourses (q % 64)).headD (0, 0)
  s.courseField (q / 64) a b 273 0 6

/-- The global lines that toggle: those with a live source, less the lines that run control or a
capture's pause stops (R126), freeze bit 6 (16 R553: at the halt, assumption log 52), and none in Hold (07 R246). -/
def State.clkActive (s : State) : W64 :=
  if s.power.mode == .hold then 0
  else s.fab.clkLive &&& ~~~(s.cap.stopped ||| s.cap.paused ||| (if s.frozen.getLsbD 6 then s.cap.dutLines else 0))

/-- A change of the lines that run: the device time at which each line that stops had its last edge (R145). -/
def keepEdges (f : State → State) (s : State) : State :=
  let t := f s
  let gone := s.clkActive &&& ~~~t.clkActive
  if gone = 0 then t
  else { t with fab.edgeAt := (bitList gone.toNat 64).foldl (fun m g => SMap.put 0 m g (t.time + 1)) t.fab.edgeAt }

/-- While FAB_SEAM_REPAIR runs, a change would start a global line (R146). -/
def State.startsLine (s t : State) : Bool := s.fab.repairing && t.clkActive &&& ~~~s.clkActive != 0

/-- The last edge of line `g` that is known to `fab.edgeAt` lies within 10 µs, `after` ticks past what it holds. -/
def State.edgeWithin (s : State) (g after : Nat) : Bool :=
  let e := SMap.look 0 s.fab.edgeAt g
  e != 0 && decide (e + after ≤ s.time + 1) && decide (s.time + 1 ≤ e + after + 1000)

/-- The global lines that count as toggling: with an edge in the last 10 µs (R145). A line that runs has one, but for a beat
line of a longer period, whose rises stand in `fab.edgeAt` and whose high phase lasts half the period (08 R267). -/
def State.toggling (s : State) : W64 :=
  let slow := s.bond.period.toNat > 20000 && s.bond.members != 0
  BitVec.ofNat 64 (bitsNat ((List.range 64).map fun g =>
    if slow && g == s.bond.beatLine.toNat then s.edgeWithin g 0 || s.edgeWithin g (s.bond.period.toNat / 20)
    else s.clkActive.getLsbD g || s.edgeWithin g 0))

/-- The port clock toggles. -/
def State.portRuns (s : State) (q : Nat) : Bool := s.clkActive.getLsbD (s.portClkSel q)

/-- Ports that have become held: requests that wait for the fabric are answered ISOLATED, and the
responses of outstanding initiator requests will be discarded (R144). -/
def dropHeldPorts (s : State) : State :=
  let gone := s.fab.ports.filter fun e => s.portHeld e.1
  let answers := (gone.map fun e =>
    (e.2.tq ++ e.2.door ++ e.2.delivered.map (·.req)).map fun r =>
      ({ req := r, status := 2, data := [], poison := 0 } : GResp)).flatten
  let s := { s with grout := { s.grout with responses := s.grout.responses ++ answers } }
  gone.foldl (fun s e => s.setPort e.1 fun x => { x with tq := [], door := [], delivered := [], ir := [], iq := [] }) s

/-- A target request's tag towards the fabric: the lowest that no request delivered before it carries (assumption
log 65). -/
def FabPort.freshTag (p : FabPort) : Option (BitVec 6) :=
  ((List.range 64).map (BitVec.ofNat 6 ·)).find? fun t => !p.delivered.any (·.tag == t)

/-- Ports of the part that are held, of the 512. -/
def State.portsHeld (s : State) : Nat := ((List.range 512).filter s.portHeld).length

/-! ### Registers of the FAB block (04 T4.13 to T4.17) -/

/-- The listed groups of a seam and direction; an inactive seam reports none (R113). -/
def State.groupsOf (s : State) (seam dir : Nat) : List (Nat × Group) :=
  if s.seamInactive seam then [] else s.fab.groups.filter fun e => e.1 / 1280 == 2 * seam + dir

/-- Spares used in a seam and direction. -/
def State.sparesUsed (s : State) (seam dir : Nat) : Nat := ((s.groupsOf seam dir).filter (·.2.spareUsed)).length

/-- Unrepairable wires of a seam and direction. -/
def State.defectCount (s : State) (seam dir : Nat) : Nat :=
  ((s.groupsOf seam dir).map fun g => popCount g.2.defects.toNat 32).foldl (· + ·) 0

/-- Frozen groups of a seam and direction. -/
def State.frozenCount (s : State) (seam dir : Nat) : Nat := ((s.groupsOf seam dir).filter fun e => s.groupFrozen (groupOfKey e.1)).length

/-- A count in its field of FAB_SEAM_SPARES, DEFECTS or FROZEN, whose range ends at 1,280 (T4.15, assumption log 73). -/
def seamCount (n : Nat) : Nat := min 1280 n

/-- The 64-bit record of a group (T4.16). A group of an inactive seam reports neither repairs nor defects (R113); a group
without a monitor shows its own number as monitor_group (assumption log 73). -/
def State.groupRecord (s : State) (g : SeamGroup) : Nat :=
  let x := if s.seamInactive g.seam.val then {} else s.group g
  let mon := s.monitorOf g
  let m := (mon.getD g.group).val
  s.groupField g 1 6 + m * 2 ^ 6 + (s.sampleCode g).toNat * 2 ^ 17 +
  (if x.spareUsed then x.repaired.toNat else 0) * 2 ^ 22 + b2n x.spareUsed * 2 ^ 27 +
  b2n x.spareFaulty * 2 ^ 28 + b2n (mon.isSome && m != g.group.val) * 2 ^ 29 + b2n (s.groupFrozen g) * 2 ^ 30 +
  b2n (s.groupRegistered g) * 2 ^ 31 + x.defects.toNat * 2 ^ 32

/-- The record FAB_GRP_SEL selects; 0 where it selects no group. -/
def State.selectedGroup (s : State) : Nat :=
  let v := s.fab.grpSel.toNat
  let seam := bitsAt v 28 4
  let grp := bitsAt v 0 11
  if seam < 10 && grp < 1280 then
    s.groupRecord { seam := Fin.ofNat 10 seam, dir := Fin.ofNat 2 (bitsAt v 27 1), group := Fin.ofNat 1280 grp }
  else 0

/-- FAB_SEAM_SUMMARY (T4.14). -/
def State.seamSummary (s : State) : Nat :=
  bitsNat ((List.range 10).map s.seamInactive) +
  1024 * bitsNat ((List.range 10).map fun m => s.defectCount m 0 + s.defectCount m 1 != 0) +
  1048576 * bitsNat ((List.range 10).map fun m => s.frozenCount m 0 + s.frozenCount m 1 != 0)

/-- FAB_PORT_STATUS_q (T4.17). -/
def State.portStatus (s : State) (q : Nat) : Nat :=
  let p := s.port q
  (p.ir.length + p.iq.length) + 256 * p.tq.length + b2n p.dropped * 2 ^ 29 +
  b2n (s.portHeld q) * 2 ^ 30 + b2n (s.toggling.getLsbD (s.portClkSel q)) * 2 ^ 31

/-- Reads a register of the FAB block; high words of pairs as they stand. -/
def State.readFab (s : State) (off : Nat) : Nat :=
  if off = 0 then s.seamSummary
  else if 0x40 ≤ off && off < 0xE0 then
    let m := (off - 0x40) / 16
    let word (f : Nat → Nat) : Nat := seamCount (f 0) + 65536 * seamCount (f 1)
    if off % 16 = 0 then word (s.sparesUsed m)
    else if off % 16 = 4 then word (s.defectCount m)
    else if off % 16 = 8 then word (s.frozenCount m)
    else 0
  else if off = 0x100 then s.fab.grpSel.toNat
  else if off = 0x104 then s.selectedGroup % 2 ^ 32
  else if off = 0x108 then s.selectedGroup / 2 ^ 32
  else if off = 0x110 then s.toggling.toNat % 2 ^ 32
  else if off = 0x114 then s.toggling.toNat / 2 ^ 32
  else if off = 0x120 then s.fab.vioPresent.toNat
  else if off = 0x124 then s.fab.vioLost.toNat
  else if 0x1000 ≤ off && off < 0x1800 then s.portStatus ((off - 0x1000) / 4)
  else 0

end Sys2Proof.Machine
end

