-- ==== Sys2Proof/Machine/CopingOps.lean ====
section
/-!
DEFINITION. Coping memory's shared operations: stored bytes with their check state (05 R168, R169),
the user ports (05 R151 to R163, R177), the scrub walk's line (05 R173), the coping window (05 R165,
R166), throttle states (05 T5.7) and the CPG block.
-/
namespace Sys2Proof.Machine
open Sys2Proof

/-! ### Stored bytes (R168, R169) -/

/-- What a read of a stored byte delivers: the data, the poison mark and the kind of T5.12 (0 clean, 1
corrected, 2 uncorrectable, 3 stored poison). -/
def MByte.decode (m : MByte) : Byte × Bool × Nat :=
  match m.chk with
  | .clean => (m.data, false, 0)
  | .oneBit b => (if b.val < 8 then m.data ^^^ BitVec.ofNat 8 (2 ^ b.val) else m.data, false, 1)
  | .bad => (m.data, true, 2)
  | .poison => (m.data, true, 3)

/-- The bit a single-bit error was corrected in. -/
def MByte.errBit (m : MByte) : Nat := match m.chk with | .oneBit b => b.val | _ => 0

/-- A byte stored with fresh check bits, or poisoned (R169). -/
def MByte.store (v : Byte) (poison : Bool) : MByte := { data := v, chk := if poison then .poison else .clean }

/-- The key of byte `b` of slab `slab` of brick `n`; `n * 2^29` plus the window offset (R165). -/
def slabKey (n slab b : Nat) : Nat := n * 2 ^ 29 + slab * 16384 + b

/-- A stored byte of coping memory. -/
def State.cop (s : State) (n slab b : Nat) : MByte := SMap.look {} s.coping.mem (slabKey n slab b)

/-- Stores a byte of coping memory. -/
def State.putCop (s : State) (n slab b : Nat) (m : MByte) : State :=
  { s with coping := { s.coping with mem := SMap.put {} s.coping.mem (slabKey n slab b) m } }

/-- The record of T5.12. -/
def lastErrRecord (kind source bit slab byte : Nat) : W64 :=
  BitVec.ofNat 64 (byte + slab * 2 ^ 14 + kind * 2 ^ 30 + (if kind = 1 then bit else 0) * 2 ^ 36 + source * 2 ^ 40)

/-- Counts and logs what a read found (R168); `source` 0 port A, 1 port B, 2 hidden port, 3 scrub. -/
def noteRead (n slab byte source : Nat) (m : MByte) (s : State) : State :=
  let kind := m.decode.2.2
  if kind = 0 then s
  else
    let c := s.coping
    let c := { c with lastErr := SMap.put 0 c.lastErr n (lastErrRecord kind source m.errBit slab byte) }
    if kind = 1 then
      logEvent 0x4201 [n, slab, byte, m.errBit, source]
        { s with coping := { c with ce := SMap.upd 0 c.ce n (satAdd · 1) } }
    else if kind = 2 then
      logEvent 0x4202 [n, slab, byte, source]
        { s with coping := { c with ue := SMap.upd 0 c.ue n (satAdd · 1) } }
    else { s with coping := { c with poison := SMap.upd 0 c.poison n (satAdd · 1) } }

/-- Reads one byte: data, poison, and the state with the read counted. -/
def copRead (n slab byte source : Nat) (s : State) : Byte × Bool × State :=
  let m := s.cop n slab byte
  let d := m.decode
  (d.1, d.2.1, noteRead n slab byte source m s)

/-! ### Slab configuration (T5.1) -/

/-- One port's half of a slab's configuration. -/
structure SlabPortCfg where
  width : Nat := 0
  wmode : Nat := 0
  outreg : Bool := false
  clkSel : Nat := 127
  inv : Bool := false
deriving DecidableEq, Repr

/-- A slab's configuration, decoded. -/
structure SlabCfg where
  use : Nat := 0
  simple : Bool := false
  a : SlabPortCfg := {}
  b : SlabPortCfg := {}
  winnerB : Bool := false
  casLen : Nat := 0
  casPos : Nat := 0
  init : Nat := 0
deriving DecidableEq, Repr

/-- The configuration of slab `slab` of brick `n`. -/
def State.slabCfg (s : State) (n slab : Nat) : SlabCfg :=
  let f := s.courseField n (slab % 160) (slab / 160) 272
  { use := unreserve 3 (f 0 2), simple := f 1 1 == 1
    a := { width := f 2 3, wmode := unreserve 3 (f 4 2), outreg := f 6 1 == 1, clkSel := clockSel (f 8 7), inv := f 10 1 == 1 }
    b := { width := f 3 3, wmode := unreserve 3 (f 5 2), outreg := f 7 1 == 1, clkSel := clockSel (f 9 7), inv := f 11 1 == 1 }
    winnerB := f 12 1 == 1, casLen := f 13 6, casPos := f 14 6, init := unreserve 3 (f 15 2) }

/-- The depth in words at a width code (T5.2). -/
def slabDepth (width : Nat) : Nat := 131072 / 2 ^ width

/-- The read latency L of R159. -/
def slabLatency (casLen : Nat) (outreg : Bool) : Nat :=
  1 + b2n outreg + (if casLen = 0 then 0 else if casLen < 16 then 1 else 2)

/-- Where a port address lands: the slab's position in the cascade and the word in it; none for an
address past the cascade's end (R153, R161). -/
def slabTarget (casLen width addr : Nat) : Option (Nat × Nat) :=
  let d := slabDepth width
  if casLen = 0 then some (0, addr % d)
  else if addr / d ≤ casLen then some (addr / d, addr % d) else none

/-! ### One access of a user port -/

/-- An access as it reaches a slab: which slab and word, and what it writes. -/
structure SlabAcc where
  slab : Nat
  word : Nat
  width : Nat
  wmode : Nat
  req : SlabReq
  canWrite : Bool
deriving DecidableEq, Repr

/-- The access writes byte `i` of its slab: the bits, their data and the poison input (R153, R156). -/
def SlabAcc.writes (x : SlabAcc) (i : Nat) : Byte × Byte × Bool :=
  let w := 2 ^ x.width
  if !x.req.en || !x.canWrite then (0, 0, false)
  else if x.width < 3 then
    let off := x.word * w
    if x.req.we && off / 8 = i then
      let sh := off % 8
      (BitVec.ofNat 8 ((2 ^ w - 1) * 2 ^ sh), BitVec.ofNat 8 (x.req.din.toNat % 2 ^ w * 2 ^ sh), x.req.pin.getLsbD 0)
    else (0, 0, false)
  else
    let b0 := x.word * (w / 8)
    if b0 ≤ i && i < b0 + w / 8 && x.req.be.getLsbD (i - b0) then
      (0xFF, BitVec.ofNat 8 (bitsAt x.req.din.toNat (8 * (i - b0)) 8), x.req.pin.getLsbD (i - b0))
    else (0, 0, false)

/-- The bytes of its slab that an access touches. -/
def SlabAcc.bytes (x : SlabAcc) : List Nat :=
  let w := 2 ^ x.width
  if x.width < 3 then [x.word * w / 8] else (List.range (w / 8)).map (x.word * (w / 8) + ·)

/-- The access writes something. -/
def SlabAcc.isWrite (x : SlabAcc) : Bool := x.bytes.any fun i => (x.writes i).1 != 0

/-- What byte `i` becomes when `loser` and `winner` write it together (R157, T5.5): bit by bit the
winner's data; a byte only partly overwritten keeps poison, and takes it from a port with pin 1. -/
def mergeByte (old : MByte) (loser winner : Byte × Byte × Bool) : MByte :=
  let lm := loser.1 &&& ~~~winner.1
  let m := lm ||| winner.1
  if m = 0 then old
  else
    let d := old.decode
    let v := (d.1 &&& ~~~m) ||| (loser.2.1 &&& lm) ||| (winner.2.1 &&& winner.1)
    let p := (winner.1 != 0 && winner.2.2) || (lm != 0 && loser.2.2) || (m != 0xFF && d.2.1)
    MByte.store v p

/-- Byte `i` as access `x` reads it (T5.5): bits it writes itself come by its own mode, bits the other
access writes by the other's. Answers data, poison and the stored byte the read decoded. -/
def readByte (old new : MByte) (x y : Byte × Byte × Bool) (xMode yMode : Nat) : Byte × Bool × MByte :=
  let fromNew := (if xMode = 1 then x.1 else 0) ||| (if yMode = 1 then y.1 &&& ~~~x.1 else 0)
  if fromNew = 0 then (old.decode.1, old.decode.2.1, old)
  else
    (((new.decode.1 &&& fromNew) ||| (old.decode.1 &&& ~~~fromNew)), new.decode.2.1, new)

/-- The word an access reads, from the bytes of its slab: data and poison, and each byte's decode. -/
def assembleWord (x : SlabAcc) (rd : Nat → Byte × Bool × MByte) : BitVec 128 × BitVec 16 :=
  let bs := x.bytes.map rd
  let w := 2 ^ x.width
  let v := leNat (bs.map (·.1))
  let v := if x.width < 3 then bitsAt v (x.word * w % 8) w else v
  (BitVec.ofNat 128 v, BitVec.ofNat 16 (bitsNat (bs.map (·.2.1))))

/-- An edge is stalled at a place of the 4-cycle pattern: state 1 every second edge, state 2 three of
every four (R177; which places of the pattern: assumption log 20). -/
def stalled (thr : Nat) (phase : Fin 4) : Bool :=
  if thr = 1 then phase.val % 2 == 1 else if thr = 2 then phase.val != 0 else false

/-- The key of a user port. -/
def slabPortKey (n slab x : Nat) : Nat := (n * 25600 + slab) * 2 + x

/-- A user port. -/
def State.slabPort (s : State) (n slab x : Nat) : SlabPort := SMap.look {} s.coping.ports (slabPortKey n slab x)

/-- Writes a user port. -/
def State.setSlabPort (s : State) (n slab x : Nat) (f : SlabPort → SlabPort) : State :=
  { s with coping := { s.coping with ports := SMap.upd {} s.coping.ports (slabPortKey n slab x) f } }

/-- An edge of a port passes through its outputs: the read `r` it accepts (none: none) enters, and what
is due after this edge reaches dout and pout (R159). -/
def SlabPort.clock (p : SlabPort) (latency : Nat) (r : Option (BitVec 128 × BitVec 16)) : SlabPort :=
  let q := p.pipe ++ List.replicate (latency - 1 - p.pipe.length) none ++ [r]
  match q with
  | [] => p
  | out :: rest =>
    match out with
    | some (d, po) => { p with dout := d, pout := po, pipe := rest }
    | none => { p with pipe := rest }

/-- The throttle state of a coping die (T5.7). -/
def State.throttleOf (s : State) (n : Nat) : Nat := SMap.look 0 s.coping.throttle n

/-- The pattern moves on by one edge; a new state takes effect at the start of a pattern (R175). -/
def SlabPort.tick (p : SlabPort) (thr : Nat) : SlabPort :=
  { p with phase := p.phase + 1, thr := if p.phase = 3 then thr else p.thr }

/-- wait_x: the next edge will be stalled (R177). -/
def SlabPort.wait (p : SlabPort) : Bool := stalled p.thr p.phase

/-! ### Throttle states (T5.7) -/

/-- The next throttle state at a temperature in 1/16 degree. -/
def throttleNext (st : Nat) (t : Int) : Nat :=
  if t > 16 * 102 then 2
  else if st = 0 then (if t > 16 * 95 then 1 else 0)
  else if st = 1 then (if t < 16 * 92 then 0 else 1)
  else (if t < 16 * 99 then 1 else 2)

/-- The reading of a sensor: 25 degrees until one is observed (assumption log 6). -/
def State.temp (s : State) (die sensor : Nat) : BitVec 16 := SMap.look 0x190 s.power.temps (die * 16 + sensor)

/-- The hottest sensor of a die and its reading; the lowest index of equal readings. -/
def State.hottest (s : State) (die : Nat) : Nat × BitVec 16 :=
  (List.range 16).foldl (fun (best : Nat × BitVec 16) i =>
    if best.2.toInt < (s.temp die i).toInt then (i, s.temp die i) else best) (0, s.temp die 0)

/-! ### The window (R165, R166) -/

/-- A region held in reset by a partial load covers the slab (R165). -/
def State.slabInPartial (s : State) (n slab : Nat) : Bool :=
  s.cfg.held.any fun r => match r with
    | .bricks _ => false
    | .rect .. => r.covers n (slab % 160) (slab / 160)

/-- The answer the window gives without a slab access: its status, or none (R165). -/
def State.windowStatus (s : State) (n off : Nat) : Option (BitVec 4) :=
  if off ≥ 0x19000000 then some 5
  else if s.dieAbsent n then some 2
  else if s.slabInPartial n (off / 16384) then some 2
  else none

/-- Reads `len` bytes of the window from offset `off`: the data, and per byte whether it is poisoned. -/
def windowRead (n : Nat) : Nat → Nat → State → List (Byte × Bool) × State
  | 0, _, s => ([], s)
  | len + 1, off, s =>
    let (v, p, s) := copRead n (off / 16384) (off % 16384) 2 s
    let (rest, s) := windowRead n len (off + 1) s
    ((v, p) :: rest, s)

/-- Writes bytes of the window: enable, data and poison of each (R166). -/
def windowWrite (n : Nat) : Nat → List (Bool × Byte × Bool) → State → State
  | _, [], s => s
  | off, (en, v, p) :: rest, s =>
    let s := if en then s.putCop n (off / 16384) (off % 16384) (MByte.store v p) else s
    windowWrite n (off + 1) rest s

/-! ### The scrub walk (R173, R174) -/

/-- Lines of a coping die. -/
def scrubLines : Nat := 26214400

/-- A region has courses of brick `n`. -/
def Region.meets (n : Nat) : Region → Bool
  | .bricks m => m.getLsbD n
  | .rect k .. => k.val == n

/-- The whole of brick `n` is in reset: its dies (01 R17, R18), or its fabric by a full image (06 R191). -/
def State.brickReset (s : State) (n : Nat) : Bool :=
  s.dieAbsent n || s.dieAbsent (8 + n) || s.cfg.held.any fun r => match r with | .bricks m => m.getLsbD n | .rect .. => false

/-- A full capture's drain or a restore of slabs uses coping die `n` (07 R220, R228). -/
def State.dieDrains (s : State) (n : Nat) : Bool :=
  (s.cap.phase == .fullDrain && s.cfg.loaded.getLsbD n) ||
  (s.cap.phase == .restoreLoading && match s.cap.restore with | some r => r.full && bitAt r.mask n | none => false)

/-- The slabs of brick `n` are being configured (R172): a chunk of slab contents is arriving, or they are filled before the
release. -/
def State.slabsConfigured (s : State) (n : Nat) : Bool :=
  match s.cfg.load with
  | some l =>
    (match l.region with | some r => r.meets n | none => false) &&
    (l.phase == .verifying || (l.phase == .writing && decide (32 ≤ l.rx.length) && fieldAt (l.rx.map (·.1)) 4 1 == 1))
  | none => false

/-- A walk of die `n` is enabled and not paused (R174). -/
def State.scrubs (s : State) (n : Nat) : Bool :=
  let ctl := s.coping.scrubCtl.toNat
  bitAt ctl (16 + n) && bitsAt ctl 0 8 != 0 && !s.brickReset n && !s.dieDrains n && !s.slabsConfigured n

/-- One byte of the walk's line: corrected or poisoned in place. -/
def scrubByte (n slab byte : Nat) (s : State) : State :=
  let m := s.cop n slab byte
  let s := noteRead n slab byte 3 m s
  match m.chk with
  | .oneBit _ => s.putCop n slab byte (MByte.store m.decode.1 false)
  | .bad => s.putCop n slab byte (MByte.store m.data true)
  | _ => s

/-- The walk reads its next line (R173) and moves on; a completed pass is counted and logged (R174). -/
def scrubLine (n : Nat) (s : State) : State :=
  let line := SMap.look 0 s.coping.scrubPos n
  let off := 16 * line
  let s := (List.range 16).foldl (fun s i => scrubByte n ((off + i) / 16384) ((off + i) % 16384) s) s
  if line + 1 = scrubLines then
    let passes := satAdd (SMap.look 0 s.coping.scrubPasses n) 1
    let s := { s with coping := { s.coping with
      scrubPos := SMap.put 0 s.coping.scrubPos n 0, scrubPasses := SMap.put 0 s.coping.scrubPasses n passes } }
    logEvent 0x4204 [n, passes.toNat] s
  else { s with coping := { s.coping with scrubPos := SMap.put 0 s.coping.scrubPos n (line + 1) } }

/-! ### Registers of the CPG block (T5.8) -/

/-- CPG_TEMP_n: the sampled throttle temperature and its sensor (T5.11). -/
def State.cpgTemp (s : State) (n : Nat) : Nat :=
  (SMap.look 0x190 s.coping.throttleTemp n).toNat + 65536 * SMap.look 0 s.coping.throttleSensor n

/-- The eight words of a die's record, in register order. -/
def State.cpgDie (s : State) (n i : Nat) : Nat :=
  let c := s.coping
  let e := (SMap.look 0 c.lastErr n).toNat
  match i with
  | 0 => (SMap.look 0 c.ce n).toNat
  | 1 => (SMap.look 0 c.ue n).toNat
  | 2 => (SMap.look 0 c.poison n).toNat
  | 3 => s.cpgTemp n
  | 4 => e % 2 ^ 32
  | 5 => e / 2 ^ 32
  | 6 => SMap.look 0 c.scrubPos n
  | _ => (SMap.look 0 c.scrubPasses n).toNat

/-- CPG_THROTTLE_STATUS. -/
def State.throttleStatus (s : State) : Nat :=
  ((List.range 8).map fun n => s.throttleOf n * 4 ^ n).foldl (· + ·) 0

/-- Reads a register of the CPG block. -/
def State.readCpg (s : State) (off : Nat) : Nat :=
  if off = 0 then s.coping.scrubCtl.toNat
  else if off = 4 then s.throttleStatus
  else if off = 8 then s.coping.seen.toNat
  else if 0x100 ≤ off && off < 0x200 then s.cpgDie ((off - 0x100) / 32) (off % 32 / 4)
  else 0

/-- CPG_CNT_CLEAR: the counters, the passes counter among them (assumption log 21), and the last-error
records of the named dies (R178). -/
def clearCpg (mask : Nat) (s : State) : State :=
  let keep {α : Type} (m : SMap α) : SMap α := m.filter fun e => !bitAt mask e.1
  { s with coping := { s.coping with ce := keep s.coping.ce, ue := keep s.coping.ue
                                     poison := keep s.coping.poison, lastErr := keep s.coping.lastErr
                                     scrubPasses := keep s.coping.scrubPasses } }

end Sys2Proof.Machine
end

