-- ==== Sys2Proof/Machine/CapOps.lean ====
section
/-!
DEFINITION. Capture, trace and triggers: the shared operations (07). Stopping and restarting the DUT
lines (R212), the shadow strobes (R217, R228), aborts (R225, R229), the trace collectors and the CAP
block's registers.
-/
namespace Sys2Proof.Machine
open Sys2Proof

/-! ### DUT lines (R211, R212) -/

/-- Every DUT line is stopped by run control. -/
def Cap.allStopped (c : Cap) : Bool := c.dutLines &&& ~~~c.stopped == 0

/-- Run control stops every DUT line. -/
def stopLines (s : State) : State :=
  { s with cap := { s.cap with stopped := s.cap.dutLines, stopDue := false, stopAt := none, stopBeat := none } }

/-- CAP_STATE.domain_op follows the operations under way (T7.11). -/
def syncOp (s : State) : State :=
  let c := s.cap
  { s with cap.domainOp := (c.capture.any fun (x : Capture) => x.take.domain) || (c.restore.any fun (r : Restore) => r.domain) ||
      (c.runCmds.any fun (r : RunCmd) => r.seq.isSome) || c.stopBeat.isSome }

/-- The stop gates of every DUT line open at one instant. -/
def restartLines (s : State) : State :=
  { s with cap := { s.cap with stopped := 0, paused := 0 } }

/-- The run-line count goes on by `n` edges. -/
def countEdges (n : Nat) (s : State) : State :=
  { s with cap := { s.cap with edges := s.cap.edges + BitVec.ofNat 64 n } }

/-- A load is under way, from header acceptance to release or failure (06 R190). -/
def State.loadUnderWay (s : State) : Bool :=
  match s.cfg.load with
  | some l => l.phase == .writing || l.phase == .verifying || l.phase == .releasing
  | none => false

/-! ### Shadows (R217, R218, R228) -/

/-- A brick takes part in a capture: it holds a released full image. -/
def State.captured (s : State) (n : Nat) : Bool := s.cfg.loaded.getLsbD n

/-- The shadow strobe: every shadow of a captured brick takes its flip-flop or storage bit; nothing else
changes (03 R87). -/
def strobe (s : State) : State :=
  let les := SMap.mapAll {} s.fab.les fun k x =>
    if s.captured (k / 6553600) then { x with sh0 := x.ff0, sh1 := x.ff1, memShadow := x.mem } else x
  { s with fab.les := les, fab.seamShadow := s.fab.seamRegs }

/-! ### Courses (R232) -/

/-- The flip-flop that source bit `j` of course (a, b) names (R232). -/
def courseFf (n : Fin 8) (a b j : Nat) : LeAddr × Bool :=
  let t := j / 32
  ({ brick := n, u := Fin.ofNat 640 (4 * a + t % 4), v := Fin.ofNat 640 (4 * b + t / 4)
     k := Fin.ofNat 16 (j % 32 / 2) }, j % 2 == 1)

/-- The LEs of a course, tile then LE. -/
def courseLes (n : Fin 8) (slab : Nat) : List LeAddr :=
  (List.range 256).map fun i => (courseFf n (slab % 160) (slab / 160) (2 * i)).1

/-- Flip-flops of the courses that `covers` holds take their reset value, those that `on` selects: only a course whose frames
list a byte has one with a reset line. -/
def resetFfs (covers : Nat → Nat → Nat → Bool) (on : LeAddr → Bool → Bool) (s : State) : State :=
  (List.range 8).foldl (fun s n =>
    (s.listedCourses n).foldl (fun s k =>
      if covers n (k % 160) (k / 160) then
        (courseLes (Fin.ofNat 8 n) k).foldl (fun (s : State) x =>
          let c := s.leCfg x
          let s := if on x false then s.putFf x false c.rstVal0 else s
          if on x true then s.putFf x true c.rstVal1 else s) s
      else s) s) s

/-- An LE holds memory: lut_mode 2 or 3. -/
def State.isMemory (s : State) (x : LeAddr) : Bool := 2 ≤ (s.leCfg x).mode

/-- A course with a memory-mode LUT. -/
def State.marked (s : State) (n : Fin 8) (slab : Nat) : Bool := (courseLes n slab).any s.isMemory

/-! ### Aborts (R225, R229) -/

/-- A memory-mode LE of an undefined mix: every storage bit free (assumption log 3). -/
def freeLe (base : Nat) (s : State) (x : LeAddr) : State :=
  s.setLe x fun l => { l with mem := Config.free (base + x.key) }

/-- A slab of an undefined mix: each byte's data and poison free (assumption log 3). -/
def freeSlab (base : Nat) (n : Fin 8) (s : State) (slab : Nat) : State :=
  (List.range 16384).foldl (fun s b =>
    let v := Config.free (base + 2 ^ 26 + slabKey n.val slab b)
    s.putCop n.val slab b (MByte.store (v.truncate 8) (v.getLsbD 8))) s

/-- The memory-mode LUTs and slabs that the checkpoint of a failed restore names hold an undefined mix (R229). -/
def mixedMemories (r : Restore) (s : State) : State :=
  let base := s.freeNo
  ((bitList r.mask 8).map (Fin.ofNat 8)).foldl (fun s n =>
    let s := ((List.range 25600).filter (s.marked n)).foldl (fun s k =>
      ((courseLes n k).filter s.isMemory).foldl (fun s x => freeLe base s x) s) s
    if r.full then
      ((List.range 25600).filter fun k => (s.slabCfg n k).use == 1).foldl (fun s k => freeSlab base n s k) s
    else s) { s with freeNo := base + 2 ^ 34 }

/-- A status the spec leaves open (assumption log 3). -/
def State.freeStatus (s : State) : BitVec 16 := s.freeVal.truncate 16

/-- Ends a capture or restore in progress: `cause` 9 Quarantine, 10 area access error (T7.4). The valid
word stays 0 and the DUT lines stay as they are. -/
def captureAbort (cause : Nat) (s : State) : State :=
  match s.cap.capture, s.cap.restore with
  | some c, _ =>
    let st := s.freeStatus
    let s := s.stepFree
    let paused := s.cap.paused
    let s := { s with cap := { s.cap with
      capture := none, phase := .idle, lastStatus := st, lastCause := BitVec.ofNat 8 cause, lastRestore := false
      stopped := s.cap.stopped ||| paused, paused := 0 } }
    let s := logEvent 0xA102 [b2n c.take.full, cause, s.cap.drain.toNat] (syncOp s)
    finishEntry c.take.port c.take.source c.take.tag st [] s
  | none, some r =>
    let st := s.freeStatus
    let s := mixedMemories r s.stepFree
    let s := { s with cap := { s.cap with
      restore := none, phase := .idle, lastStatus := st, lastCause := BitVec.ofNat 8 cause, lastRestore := true } }
    let s := logEvent 0xA104 [cause, s.cap.drain.toNat] (syncOp s)
    finishEntry r.port r.source r.tag st (leBytes 8 s.cap.drain.toNat) s
  | none, none => s

/-- Cancels an armed capture: it completes with BAD_STATE, cause 8 (R254, 14 R478). -/
def disarmCapture (s : State) : State :=
  match s.cap.armed with
  | none => s
  | some t =>
    let s := { s with cap := { s.cap with
      armed := none, lastStatus := Status.badState, lastCause := 8, lastRestore := false } }
    finishEntry t.port t.source t.tag Status.badState [] s

/-- Every collector stops, its unwritten samples lost (14 R471, R478). -/
def collectorsStop (s : State) : State :=
  let cs := SMap.mapAll {} s.cap.collectors fun _ c => { c with running := false, samples := [], flush := false }
  { s with cap.collectors := cs }

/-- Every trigger unit is disarmed (14 R478). -/
def triggersDisarm (s : State) : State :=
  { s with cap.triggers := SMap.mapAll {} s.cap.triggers fun _ t => { t with armed := false } }

/-! ### Collectors (R235 to R239) -/

/-- Brick `n`'s collector. -/
def State.coll (s : State) (n : Nat) : Collector := SMap.look {} s.cap.collectors n

/-- Writes a collector. -/
def State.setColl (s : State) (n : Nat) (f : Collector → Collector) : State :=
  { s with cap := { s.cap with collectors := SMap.upd {} s.cap.collectors n f } }

/-- Bytes of a sample of `t` taps (R236). -/
def sampleBytes (t : Nat) : Nat := 64 * ((t + 511) / 512)

/-- Bytes of a trace block (R237). -/
def Collector.blockBytes (c : Collector) : Nat := 64 + 64 * sampleBytes c.taps.length

/-- The slabs of a brick that form its coping trace store (R237). -/
def State.traceSlabs (s : State) (n : Nat) : List Nat :=
  (List.range 25600).filter fun i => (s.slabCfg n i).use == 2

/-- The size of a collector's store. -/
def State.storeBytes (s : State) (n : Nat) (c : Collector) : Nat :=
  if c.dram then c.length.toNat else 16384 * (s.traceSlabs n).length

/-- One sample of a collector: the tapped values in tap order, padded; a tap in a region in reset
samples 0 (R235, R236). -/
def State.traceSampleOf (s : State) (n : Fin 8) : List Byte :=
  let c := s.coll n
  let bits := c.taps.map fun e =>
    let slab := e.1 / 16
    let (le, ff1) := courseFf n (slab % 160) (slab / 160) e.2
    s.stage n (slab % 160) (slab / 160) != 0 && s.ffVal le ff1
  leBytes (sampleBytes c.taps.length) (bitsNat bits)

/-! ### Registers of the CAP block (T7.10 to T7.13) -/

/-- The code of a phase (T7.11). -/
def CapPhase.code : CapPhase → Nat
  | .idle => 0 | .awaitEdge => 1 | .pause => 2 | .lightDrain => 3 | .fullDrain => 4
  | .restoreLoading => 5 | .aborting => 6

/-- A clock selection of course 160 b + a of brick `n` names a line outside a mask: a global line that is not in it, or a
regional line that no global line of it drives (04 T4.5, R127). -/
def State.selOutside (s : State) (n course : Nat) (mask : W64) (sel : Nat) : Bool :=
  if sel < 64 then !mask.getLsbD sel
  else if sel < 88 then
    match Config.bandSource (s.framesOf n 204800 32) (Fin.ofNat 8 (course / 3200)) (Fin.ofNat 24 (sel - 64)) with
    | some (.line g) => !mask.getLsbD g.val
    | some _ => true
    | none => false
  else false

/-- The clock selections in use in a course: those of the tile clocks that some flip-flop or memory takes, of the seam groups
with a registered wire, and of a slab's user ports (03 T3.3, R96; 04 R111; 05 T5.1). -/
def State.courseClocks (s : State) (n : Fin 8) (course : Nat) : List Nat :=
  let les := courseLes n course
  let tiles := les.flatMap fun x =>
    let c := s.leCfg x
    let t := s.tileCfg x.tileAddr
    [if c.clk0 then t.src1 else t.src0, if c.clk1 then t.src1 else t.src0] ++ if 2 ≤ c.mode then [t.src0] else []
  let seams := (List.range 160).flatMap fun i =>
    [course % 160, course / 160].flatMap fun k =>
      let g : SeamGroup := { seam := Fin.ofNat 10 (i / 16), dir := Fin.ofNat 2 (i / 8), group := Fin.ofNat 1280 (8 * k + i % 8) }
      if g.rxCourse = (n.val, course % 160, course / 160) && s.groupRegistered g then [s.groupField g 1 6] else []
  let slab := s.slabCfg n course
  tiles ++ seams ++ if slab.use = 1 then [slab.a.clkSel, slab.b.clkSel] else []

/-- The loaded image clocks elements from outside the mask of DUT lines (R218). A course whose frames list no byte has every
clock selection 0, which is GCK00. -/
def State.incoherent (s : State) : Bool :=
  (bitList s.cfg.loaded.toNat 8).any fun n =>
    let listed := s.listedCourses n
    (decide (listed.length < 25600) && !s.cap.dutLines.getLsbD 0) ||
    listed.any fun k => (s.courseClocks (Fin.ofNat 8 n) k).any (s.selOutside n k s.cap.dutLines)

/-- CAP_STATE. -/
def State.capState (s : State) : Nat :=
  let c := s.cap
  c.phase.code + c.runLine.toNat * 2 ^ 16 + b2n s.incoherent * 2 ^ 28 + b2n c.allStopped * 2 ^ 29 +
  b2n c.domainOp * 2 ^ 30 + b2n c.armed.isSome * 2 ^ 31

/-- CAP_LAST. -/
def State.capLast (s : State) : Nat :=
  b2n s.cap.lastRestore + s.cap.lastCause.toNat * 2 ^ 8 + s.cap.lastStatus.toNat * 2 ^ 16

/-- CAP_TRACE_STATE_n. -/
def Collector.stateWord (c : Collector) : Nat :=
  c.line.toNat * 2 ^ 16 + b2n c.stoppedTrigger * 2 ^ 26 + b2n c.stoppedFull * 2 ^ 27 +
  b2n c.overflow * 2 ^ 28 + b2n c.wrap * 2 ^ 29 + b2n c.dram * 2 ^ 30 + b2n c.running * 2 ^ 31

/-- A trigger unit. -/
def State.trig (s : State) (u : Nat) : Trigger := SMap.look {} s.cap.triggers u

/-- Writes a trigger unit. -/
def State.setTrig (s : State) (u : Nat) (f : Trigger → Trigger) : State :=
  { s with cap := { s.cap with triggers := SMap.upd {} s.cap.triggers u f } }

/-- CAP_TRIG_STATE_u. -/
def Trigger.stateWord (t : Trigger) : Nat :=
  t.actions.toNat * 2 ^ 16 + t.combine.toNat * 2 ^ 24 + b2n t.captureMissed * 2 ^ 29 +
  b2n t.fired * 2 ^ 30 + b2n t.armed * 2 ^ 31

/-- One of the four CAP_TRACE registers of a brick. -/
def State.traceWord (s : State) (n i : Nat) : Nat :=
  let c := s.coll n
  match i with
  | 0 => c.stateWord
  | 1 => c.blockSeq.toNat
  | 2 => c.lost.toNat
  | _ => c.taps.length

/-- Reads a register of the CAP block. -/
def State.readCap (s : State) (off : Nat) : Nat :=
  let c := s.cap
  let half (v : W64) (hi : Bool) : Nat := if hi then v.toNat / 2 ^ 32 else v.toNat % 2 ^ 32
  if off = 0x00 then s.capState
  else if off = 0x04 then s.capLast
  else if off = 0x08 then half c.dutLines false
  else if off = 0x0C then half c.dutLines true
  else if off = 0x10 then half c.stopped false
  else if off = 0x14 then half c.stopped true
  else if off = 0x18 then half c.edges false
  else if off = 0x1C then half c.edges true
  else if off = 0x20 then half c.drain false
  else if off = 0x24 then half c.drain true
  else if 0x100 ≤ off && off < 0x180 then s.traceWord ((off - 0x100) / 16) (off % 16 / 4)
  else if 0x200 ≤ off && off < 0x280 then
    let t := s.trig ((off - 0x200) / 8)
    if off % 8 = 0 then t.stateWord else t.count.toNat
  else 0

end Sys2Proof.Machine
end

