-- ==== Sys2Proof/Machine/NetOps.lean ====
section
/-!
DEFINITION. The fabric's nets: what drives each sink of a tile's local mortar and of a course's junction (03 R88, 04 R105 to
R108), the level of every net at one instant (03 R78, R91 to R95; 04 R111 to R114), the clock lines, bands and gated tile
clocks (04 R125 to R129), and the I/O cells (04 R131 to R136).
-/
namespace Sys2Proof
open Sys2Proof.Machine

/-! ### Courses and segments (04 R105 to R108, R138; 08 R265; 09 R326; 18 R585) -/

/-- A course of a brick. -/
structure CourseAddr where
  brick : Fin 8
  a : Fin 160
  b : Fin 160
deriving DecidableEq, Repr

/-- The course of a tile. -/
def TileAddr.course (t : TileAddr) : CourseAddr :=
  { brick := t.brick, a := Fin.ofNat 160 (t.u.val / 4), b := Fin.ofNat 160 (t.v.val / 4) }

/-- Tile `i` of a course. -/
def CourseAddr.tile (c : CourseAddr) (i : Fin 16) : TileAddr :=
  { brick := c.brick, u := Fin.ofNat 640 (4 * c.a.val + i.val % 4), v := Fin.ofNat 640 (4 * c.b.val + i.val / 4) }

/-- The span of a segment in courses (T4.1). -/
def Span.courses : Span → Nat
  | .one => 1 | .two => 2 | .four => 4 | .sixteen => 16 | .sixtyFour => 64 | .brick => 160

/-- The segments of a span that start at a junction in each direction (T4.1). -/
def Span.tracks : Span → Nat
  | .one => 128 | .two => 64 | .four => 64 | .sixteen => 24 | .sixtyFour => 12 | .brick => 4

/-- The course where a segment ends, north, east, south or west of its start; the brick's edge ends it (R107). -/
def segmentEnd (a b : Fin 160) (dir : Fin 4) (span : Span) : Fin 160 × Fin 160 :=
  let n := span.courses
  match dir with
  | 0 => (a, Fin.ofNat 160 (min 159 (b.val + n)))
  | 1 => (Fin.ofNat 160 (min 159 (a.val + n)), b)
  | 2 => (a, Fin.ofNat 160 (b.val - n))
  | _ => (Fin.ofNat 160 (a.val - n), b)

/-- The course of a fold wire (08 R265): wire `w` of group `g`. -/
def foldCourse (g : Fin 32) (w : Nat) : CourseAddr :=
  { brick := Fin.ofNat 8 (g.val / 4), a := Fin.ofNat 160 (40 * (g.val % 4) + 4 + w / 128)
    b := if g.val / 4 < 4 then 0 else 159 }

/-- The course that carries `l`'s control wire `bit`; that of bit 0 holds its clocks (09 R326). -/
def laneCourse (l : Fin 256) (bit : Nat) : CourseAddr :=
  foldCourse (Fin.ofNat 32 (l.val / 8)) (512 * (l.val % 8) + 128 * (bit / 16))

/-- The course of FX(8 n + j) (18 R585). -/
def fxCourse (k : Fin 64) : CourseAddr :=
  { brick := Fin.ofNat 8 (k.val / 8), a := Fin.ofNat 160 (20 * (k.val % 8) + 15), b := 15 }

/-- The course of trigger line `l` of a brick (07 R242). -/
def trigCourse (n : Fin 8) (l : Fin 64) : CourseAddr :=
  { brick := n, a := Fin.ofNat 160 (20 * (l.val % 8) + 10), b := Fin.ofNat 160 (20 * (l.val / 8) + 10) }

/-- The course of an I/O cell: the package file's (R131). -/
def ioCourse (u : Fin 32) (pin : Fin 48) : CourseAddr :=
  let c := Config.ioCourse u pin
  { brick := Fin.ofNat 8 (u.val / 4), a := c.1, b := c.2 }

/-- The course of a triple. -/
def courseOf (x : Nat × Nat × Nat) : CourseAddr :=
  { brick := Fin.ofNat 8 x.1, a := Fin.ofNat 160 x.2.1, b := Fin.ofNat 160 x.2.2 }

/-- The course a seam group's wires leave from (R110). -/
def txCourse (g : SeamGroup) : Nat × Nat × Nat :=
  let (p, q) := seamBricks g.seam.val
  let k := g.group.val / 8
  let east := g.seam.val < 6
  if g.dir.val = 0 then (p, if east then 159 else k, if east then k else 159)
  else (q, if east then 0 else k, if east then k else 0)

/-- A signal arrives in the junction of a course. -/
def FabIn.at (x : FabIn) (c : CourseAddr) : Bool :=
  match x with
  | .seam g _ => courseOf g.rxCourse == c
  | .fold g w => foldCourse g w.val == c
  | .port q _ => c.brick.val == q.val / 64 && (portCourses (q.val % 64)).contains (c.a.val, c.b.val)
  | .slab n k _ _ => c == { brick := n, a := Fin.ofNat 160 k.val, b := Fin.ofNat 160 (k.val / 160) }
  | .io u pin _ => ioCourse u pin == c
  | .rxCtl l bit => laneCourse l bit.val == c
  | .laneClk l _ => laneCourse l 0 == c
  | .fx k => fxCourse k == c

/-- A sink belongs to the junction of a course. -/
def FabOut.at (o : FabOut) (c : CourseAddr) : Bool :=
  match o with
  | .tile _ _ => true
  | .seg _ span track => decide (track < span.tracks)
  | .seam g _ => courseOf (txCourse g) == c
  | .fold g w => foldCourse g w.val == c
  | .port q _ => c.brick.val == q.val / 64 && (portCourses (q.val % 64)).contains (c.a.val, c.b.val)
  | .slab _ _ => true
  | .io u pin _ => ioCourse u pin == c
  | .txCtl l bit => laneCourse l bit.val == c
  | .fx k _ => fxCourse k == c
  | .trig l => trigCourse c.brick l == c
  | .gbuf _ => true
  | .rbuf band _ => band.val == c.b.val / 20

/-- A source can drive a sink of a course's junction: it arises or ends there (R106 to R108). -/
def FabSrc.at (x : FabSrc) (c : CourseAddr) : Bool :=
  match x with
  | .out _ _ => true
  | .seg a b dir span track => decide (track < span.tracks) && segmentEnd a b dir span == (c.a, c.b)
  | .arrive i => i.at c

end Sys2Proof

namespace Sys2Proof.Machine
open Sys2Proof

/-- Lane `l`. -/
def State.lane (s : State) (l : Nat) : Lane := SMap.look {} s.lanes.lanes l

/-- Group `g`. -/
def State.grp (s : State) (g : Nat) : BondGroup := SMap.look {} s.bond.groups g

/-! ### Levels that may be unknown -/

/-- The value of a function of some inputs, where it is the same for every value of the unknown ones (a loop of logic
gives none). -/
def decided : List (Option Bool) → (List Bool → Bool) → Option Bool
  | [], f => some (f [])
  | some b :: ls, f => decided ls fun bs => f (b :: bs)
  | none :: ls, f =>
    let x := decided ls fun bs => f (false :: bs)
    if x = decided ls fun bs => f (true :: bs) then x else none

/-- The carry multiplexer of R91 over levels. -/
def carryLevel (p g c : Option Bool) : Option Bool := decided [p, g, c] fun bs => carryOut (nth false bs 0) (nth false bs 1) (nth false bs 2)

/-! ### Junctions -/

/-- The source the image gives a sink of a course's junction. -/
def State.junction (s : State) (c : CourseAddr) (o : FabOut) : Option FabSrc :=
  if o.at c then
    (Config.junction (s.framesOf c.brick.val (8 * (160 * c.b.val + c.a.val)) 8) o).filter (·.at c)
  else none

/-- The outputs of a course are isolated: it has no image, or lies in a region whose outputs are not yet released (06 R199,
R201; R93, R114). -/
def State.courseHeld (s : State) (c : CourseAddr) : Bool := s.stage c.brick.val c.a.val c.b.val == 0

/-! ### I/O cells (04 R131 to R136) -/

/-- An I/O cell's configuration, decoded (T4.9). -/
structure IoCfg where
  std : Nat := 0
  dir : Nat := 0
  drive : Nat := 0
  slew : Bool := false
  pull : Nat := 0
  hyst : Bool := false
  term : Bool := false
  reg : Nat := 0
  clkSel : Nat := 0
  off : Nat := 0
deriving DecidableEq, Repr

/-- The number of drive strengths of a standard (T4.8). -/
def driveCount (std : Nat) : Nat := if std = 1 then 2 else if std = 2 ∨ std = 3 then 3 else if std = 4 then 4 else 0

/-- The fields of one I/O cell, as its own course holds them: reserved values are decoded as 0 (R133, R134, 03 R77). -/
def State.ioFields (s : State) (u : Fin 32) (pin : Fin 48) : IoCfg :=
  let c := ioCourse u pin
  let f := s.courseField c.brick.val c.a.val c.b.val (500 + 48 * (u.val % 4) + pin.val)
  let std := unreserve 6 (f 0 3)
  let reg := f 7 2
  { std, dir := unreserve 3 (f 1 2), drive := unreserve (driveCount std) (f 2 2), slew := f 3 1 == 1, pull := f 4 2
    hyst := f 5 1 == 1, term := f 6 1 == 1, reg := if reg = 3 ∧ std ≠ 5 then 0 else reg
    clkSel := clockSel (f 8 7), off := unreserve 3 (f 9 2) }

/-- The even pin of a pair. -/
def evenPin (pin : Fin 48) : Fin 48 := Fin.ofNat 48 (pin.val / 2 * 2)

/-- The fields that govern a pin: with LVDS on the even pin of its pair, the even pin's (R133). -/
def State.ioCfg (s : State) (u : Fin 32) (pin : Fin 48) : IoCfg :=
  let e := s.ioFields u (evenPin pin)
  if e.std = 5 then e else s.ioFields u pin

/-- The registers of an I/O cell. -/
def State.ioReg (s : State) (u : Fin 32) (pin : Fin 48) : IoReg := SMap.look {} s.fab.io (48 * u.val + pin.val)

/-- What a user I/O pin's output does (T4.10): nothing, a value of io_off, or as configured and driven. -/
inductive PinState where
  | hiZ
  | off (value : Nat)
  | configured
deriving DecidableEq, Repr

/-- The first row of T4.10 that applies to a pin. -/
def State.pinState (s : State) (u : Fin 32) (pin : Fin 48) : PinState :=
  let c := ioCourse u pin
  let cfg := s.ioCfg u pin
  if !s.fab.vioPresent.getLsbD u.val then .hiZ
  else if !s.cfg.loaded.getLsbD c.brick.val && !(s.cfg.held.any fun r => r.covers c.brick.val c.a.val c.b.val) then .hiZ
  else if cfg.std = 0 || s.power.phase == .dormant then .hiZ
  else if s.secAxis == .quarantine || s.courseHeld c then .off cfg.off
  else .configured

/-! ### The level of a net at one instant -/

/-- A point of the fabric that has a level: a sink of a tile's local mortar (R88), an output of an LE (T3.2), the carry into
and out of an LE (R91), an output of a tile, a sink of a junction, and a signal that arrives in one. -/
inductive Node where
  | sink (t : TileAddr) (k : Nat)
  | out (x : LeAddr) (o : Nat)
  | carry (x : LeAddr)
  | carryOut (x : LeAddr)
  | tileOut (t : TileAddr) (i : Fin 64)
  | net (c : CourseAddr) (o : FabOut)
  | arrive (x : FabIn)
deriving DecidableEq, Repr

/-- Wide mode is in force: with cin_sel of LEs 1 to 15 at 0 (R95). -/
def State.wideTile (s : State) (t : TileAddr) : Bool :=
  (s.tileCfg t).wide && (List.range 16).all fun k => (s.leCfg (t.le (Fin.ofNat 16 k))).cinSel == 0

/-- The levels of a slab port's outputs (05 T5.3): dout, pout and wait. -/
def State.slabBit (s : State) (n slab : Nat) (portB : Bool) (bit : Nat) : Bool :=
  let cfg := s.slabCfg n slab
  let p := s.slabPort n slab (b2n portB)
  if cfg.use ≠ 1 || s.stage n (slab % 160) (slab / 160) < 2 || (cfg.simple && !portB && bit < 144) then false
  else if bit < 128 then p.dout.getLsbD bit
  else if bit < 144 then p.pout.getLsbD (bit - 128)
  else p.wait

/-- The bits of a fabric port's outputs in the order of T4.11, tq then tr_ready, iq_ready, ir: those that the beats waiting in
its FIFOs give. None where no beat stands on the channel: a level that the spec does not state. -/
def State.portBit (s : State) (q bit : Nat) : Option Bool :=
  let p := s.port q
  let v (x i : Nat) : Option Bool := some (bitAt x i)
  if s.portHeld q then some false
  else if bit = 0 then some (!p.tq.isEmpty)
  else if bit < 2375 then
    match p.tq with
    | [] => none
    | r :: _ =>
      if bit < 3 then some (bit == 1 && r.op == .write)
      else if bit < 37 then v (r.addr.toNat % 2 ^ 34) (bit - 3)
      else if bit < 45 then v r.len.toNat (bit - 37)
      else if bit < 51 then (p.freshTag).map fun t => t.getLsbD (bit - 45)
      else if bit < 67 then v r.master.toNat (bit - 51)
      else if bit < 323 then some (r.op == .write && r.byteEn.getLsbD (bit - 67))
      else if bit < 2371 then
        let at_ := (bit - 323) / 8
        let first := r.addr.toNat % 256
        if r.op == .write && first ≤ at_ && at_ < first + r.data.length then
          some ((nth 0 r.data (at_ - first)).getLsbD ((bit - 323) % 8))
        else none
      else v r.poison.toNat (bit - 2371)
  else if bit = 2375 then some true
  else if bit = 2376 then some (decide (p.ir.length + p.iq.length < 16))
  else if bit = 2377 then some (!p.ir.isEmpty)
  else match p.ir with
    | [] => none
    | (tag, r) :: _ =>
      if bit < 2384 then v tag.toNat (bit - 2378)
      else if bit < 2388 then v r.status.toNat (bit - 2384)
      else if bit < 4436 then
        let at_ := (bit - 2388) / 8
        let first := r.req.addr.toNat % 256
        if first ≤ at_ && at_ < first + r.data.length then some ((nth 0 r.data (at_ - first)).getLsbD ((bit - 2388) % 8))
        else none
      else v r.poison.toNat (bit - 4436)

/-- The lanes of a use that gives them a fabric attachment: Ethernet and raw (T9.9). -/
def Lane.attached (x : Lane) : Bool := 3 ≤ x.use.toNat

/-- The lane that carries a fold wire (09 R326). -/
def laneOfFold (g : Fin 32) (w : Nat) : Nat := 8 * g.val + w / 512

/-- What a signal that arrives from another unit shows (04 R111 to R117, R136; 05 R150; 08 R265, R266; 09 T9.5, R326; 18 R584,
R585). `lv`:
the levels of this instant's nets; `fab.high` gives the level where no other state of the part does. -/
def State.arriving (s : State) (lv : Node → Option Bool) (x : FabIn) : Option Bool :=
  let high := s.fab.high
  match x with
  | .seam g w =>
    if s.seamInactive g.seam.val || (s.group g).defects.getLsbD w.val then some false
    else if bitAt (s.groupField g 0 32) w.val then some (s.seamReg g w.val)
    else lv (.net (courseOf (txCourse g)) (.seam g w))
  | .fold g w =>
    let lane := s.lane (laneOfFold g w.val)
    if lane.attached then
      if lane.loop = 1 || lane.loop = 2 then
        if lane.prbsGen then some (high.contains x) else lv (.net (foldCourse g w.val) (.fold g w))
      else if lane.use = 4 then some ((nth (false, 0) lane.rxBlocks (w.val % 512 / 64)).2.getLsbD (w.val % 64))
      else some (high.contains x)
    else
      let p := s.grp g.val
      some (decide (w.val < 64 * p.wiresIn.toNat) && (nth 0 p.presented (w.val / 8)).getLsbD (w.val % 8))
  | .port q bit => some ((s.portBit q.val bit.val).getD (high.contains x))
  | .slab n slab portB bit => some (s.slabBit n.val slab.val portB bit.val)
  | .io u pin bit =>
    let cfg := s.ioCfg u pin
    if s.pinState u pin ≠ .configured then some false
    else if cfg.reg = 0 then some (bit.val == 0 && high.contains x)
    else some ((s.ioReg u pin).inp.getLsbD bit.val)
  | .rxCtl l bit =>
    let lane := s.lane l.val
    if !lane.attached then some false
    else if bit.val = 63 && lane.use ≠ 3 then some lane.locked
    else if lane.use = 4 && bit.val < 8 && lane.loop ≠ 1 && lane.loop ≠ 2 then some (nth (false, 0) lane.rxBlocks bit.val).1
    else if lane.loop = 1 || lane.loop = 2 then lv (.net (laneCourse l bit.val) (.txCtl l bit))
    else some (high.contains x)
  | .laneClk l _ => some ((s.lane l.val).attached && high.contains x)
  | .fx k =>
    match s.svp.pinOf (0x96 + k.val) with
    | some _ => some (s.svp.vioPresent && high.contains x)
    | none => some (inactiveLevel (0x96 + k.val))

/-- The level of a sink of the local mortar whose source is `src` (R76, R88): an unconnected ce0 or ce1 is 1, any other
unconnected sink 0. -/
def sinkLevel (lv : Node → Option Bool) (t : TileAddr) (k : Nat) (src : Option PinSrc) : Option Bool :=
  match src with
  | none => some (decide (k < 176) && (k % 11 == 8 || k % 11 == 9))
  | some (.input i) => lv (.net t.course (.tile (Fin.ofNat 16 t.index) (Fin.ofNat 98 i)))
  | some (.le k o) => lv (.out (t.le k) o)
  | some .tco => lv (.carryOut (t.le 15))
  | some (.const v) => some v

/-- The LUT inputs i5 to i0 as one address. -/
def addressOf (bs : List Bool) : BitVec 6 := BitVec.ofNat 6 (bitsNat bs)

/-- The generate and propagate of an LE (R91). -/
def State.propagateLevel (s : State) (lv : Node → Option Bool) (x : LeAddr) : Option Bool :=
  if (s.leCfg x).carryEn then lv (.out x 0) else some true

/-- As `propagateLevel`: the generate. -/
def State.generateLevel (s : State) (lv : Node → Option Bool) (x : LeAddr) : Option Bool :=
  if (s.leCfg x).genX0 then lv (.sink x.tileAddr (11 * x.k.val + 6)) else lv (.out x 1)

/-- The carry c_0 into a tile (R91 to R93): from the tile to the south inside one brick, 0 while that tile's region is held. -/
def State.tileCarry (s : State) (lv : Node → Option Bool) (t : TileAddr) : Option Bool :=
  let south : TileAddr := { t with v := t.v - 1 }
  let c := s.tileCfg t
  if c.cinSel = 0 ∧ t.v.val ≠ 0 then
    if s.courseHeld south.course then some false else lv (.carryOut (south.le 15))
  else if c.cinSel = 3 then lv (.sink t 185)
  else some (tileCarryIn c.cinSel t.v.val false false)

/-- The carry out of the tile in wide mode, G_15 or (P and c_0) (R94). -/
def State.wideCarry (s : State) (lv : Node → Option Bool) (t : TileAddr) : Option Bool :=
  let les := (List.range 16).map fun k => t.le (Fin.ofNat 16 k)
  decided (s.tileCarry lv t :: (les.map (s.propagateLevel lv) ++ les.map (s.generateLevel lv))) fun bs =>
    wideCarryOut (((bs.drop 1).take 16).zip (bs.drop 17)) (nth false bs 0)

/-- One layer of the level of a point, over the levels `lv` of the points before it. -/
def State.levelStep (s : State) (lv : Node → Option Bool) (n : Node) : Option Bool :=
  match n with
  | .sink t k => sinkLevel lv t k (s.sinkSrc t k)
  | .out x o =>
    let c := s.leCfg x
    let mem := s.leMem x
    let pins := (List.range 6).map fun i => lv (.sink x.tileAddr (11 * x.k.val + i))
    match o with
    | 0 => decided pins fun bs => c.o6 mem (addressOf bs)
    | 1 => decided pins fun bs => c.o5 mem (addressOf bs)
    | 2 => decided [s.propagateLevel lv x, lv (.carry x)] fun bs => nth false bs 0 != nth false bs 1
    | 3 => some (s.ffVal x false)
    | _ => some (s.ffVal x true)
  | .carry x =>
    let c := s.leCfg x
    if x.k.val = 0 then s.tileCarry lv x.tileAddr
    else if c.cinSel = 0 then lv (.carryOut { x with k := x.k - 1 })
    else if c.cinSel = 3 then lv (.sink x.tileAddr 185)
    else some (c.carryIn false)
  | .carryOut x =>
    if x.k.val = 15 ∧ s.wideTile x.tileAddr then s.wideCarry lv x.tileAddr
    else carryLevel (s.propagateLevel lv x) (s.generateLevel lv x) (lv (.carry x))
  | .tileOut t i => sinkLevel lv t 176 (some (s.tileOutSrc t i))
  | .net c o =>
    if s.courseHeld c then some false
    else match s.junction c o with
      | none => some false
      | some (.out t i) => lv (.tileOut (c.tile t) i)
      | some (.seg a b dir span track) => lv (.net { c with a, b } (.seg dir span track))
      | some (.arrive x) => lv (.arrive x)
  | .arrive x => s.arriving lv x

/-- The level of a point as seen through `depth` layers: none past them. -/
def State.levelIn (s : State) : Nat → Node → Option Bool
  | 0, _ => none
  | d + 1, n => s.levelStep (s.levelIn d) n

/-- The level of a point of the fabric at one instant. 2^33 layers are more than the points of the part, so none means that
the point lies on a loop of logic that does not settle it. -/
def State.level (s : State) (n : Node) : Option Bool := s.levelIn (2 ^ 33) n

/-- The level of a point, `free` where a loop of logic leaves it open (assumption log 71). -/
def State.levelOr (s : State) (free : Bool) (n : Node) : Bool := (s.level n).getD free

/-! ### Clock lines (04 R125 to R129) -/

/-- The source of a global line. -/
def State.lineSource (s : State) (g : Fin 64) : Option LineSrc := Config.lineSource (s.framesOf 8 0 16) g

/-- The pin that drives a line by a clock-capable pair: the true side of pair 0 or 12 (R131, R132). -/
def pairPin (twelve : Bool) : Fin 48 := if twelve then 24 else 0

/-- The course that drives a brick's global buffer, and a regional buffer of a band. -/
def State.bufferCourse (s : State) (n i : Fin 8) : CourseAddr :=
  let c := Config.bufferCourse (s.framesOf n.val 204800 32) i
  { brick := n, a := c.1, b := c.2 }

/-- As `bufferCourse`: a regional buffer, which lies in its band. -/
def State.bandCourse (s : State) (n band : Fin 8) (line : Fin 24) : CourseAddr :=
  let c := Config.bandCourse (s.framesOf n.val 204800 32) band line
  { brick := n, a := c.1, b := Fin.ofNat 160 (20 * band.val + c.2.val) }

/-- An input pin drives a clock: its cell shows it to the fabric (T4.10, R132). -/
def State.pinClocks (s : State) (u : Fin 32) (twelve : Bool) : Bool :=
  !s.dieAbsent (u.val / 4) && s.pinState u (pairPin twelve) == .configured

/-- The source of a global line can give edges: a pin or a net in a brick or a region held in reset leaves its line low
(R125, 06 R199). -/
def State.lineUp (s : State) (g : Fin 64) : Bool :=
  match s.lineSource g with
  | none => false
  | some (.generator _) => s.cfg.loaded != 0
  | some .beat => s.cfg.loaded != 0
  | some (.pair u twelve) => s.pinClocks u twelve
  | some (.buffer n i) => !s.dieAbsent n.val && !s.courseHeld (s.bufferCourse n i)

/-- The global lines whose source toggles (R125): the hub's generators and the beat generator run with an image; whether a pin
or a net toggles is not the part's to say (assumption log 10). -/
def State.liveLines (s : State) : W64 :=
  BitVec.ofNat 64 (bitsNat ((List.range 64).map fun g =>
    let g : Fin 64 := Fin.ofNat 64 g
    s.lineUp g && match s.lineSource g with
      | some (.pair _ _) => Config.toggles s.cfg.frameMem g
      | some (.buffer _ _) => Config.toggles s.cfg.frameMem g
      | _ => true))

/-- The lines that toggle follow the frames and the regions in reset (04 R125, R199). -/
def linesFollow (s : State) : State :=
  { s with fab.clkLive := s.liveLines }

/-- The rise and the fall of a global line at an instant: its source's edges, through the stop gate at its root (R126). -/
def State.globalEdge (s : State) (ev : FabEvent) (g : Nat) : Bool × Bool :=
  let on := s.clkActive.getLsbD g
  (on && ev.rises.getLsbD g, on && ev.falls.getLsbD g)

/-- The rise and the fall of a regional line of a band (R127). -/
def State.bandEdge (s : State) (ev : FabEvent) (n band : Fin 8) (line : Fin 24) : Bool × Bool :=
  let own : Bool × Bool :=
    (ev.regional.any fun e => e.brick == n && e.band == band && e.line == line && e.rise,
     ev.regional.any fun e => e.brick == n && e.band == band && e.line == line && !e.rise)
  match Config.bandSource (s.framesOf n.val 204800 32) band line with
  | none => (false, false)
  | some (.line g) => s.globalEdge ev g.val
  | some (.pair b twelve) => if s.pinClocks (Fin.ofNat 32 (4 * n.val + b.val)) twelve then own else (false, false)
  | some .buffer => if s.dieAbsent n.val || s.courseHeld (s.bandCourse n band line) then (false, false) else own

/-- The rise and the fall of the line that a clock selection names in course c (T4.5). -/
def State.selEdge (s : State) (ev : FabEvent) (c : CourseAddr) (sel : Nat) : Bool × Bool :=
  if sel < 64 then s.globalEdge ev sel
  else if sel < 88 then s.bandEdge ev c.brick (Fin.ofNat 8 (c.b.val / 20)) (Fin.ofNat 24 (sel - 64))
  else (false, false)

/-- The key of a tile clock's gate latch. -/
def gateKey (t : TileAddr) (clk1 : Bool) : Nat := 2 * t.key + b2n clk1

/-- The latch of a tile clock at an instant (R129): transparent while the line is low, so at the line's rise it takes tgeN,
and holds while the line is high. `tge`: the level of tgeN before the instant. -/
def State.gateAt (s : State) (ev : FabEvent) (t : TileAddr) (clk1 tge : Bool) : Bool :=
  let c := s.tileCfg t
  if (s.selEdge ev t.course (if clk1 then c.src1 else c.src0)).1 then tge
  else SMap.look false s.fab.gates (gateKey t clk1)

/-- A tile clock has an active edge, the rising edge after its gate and its inversion (R128, R129, 03 R82). -/
def State.tileEdge (s : State) (ev : FabEvent) (t : TileAddr) (clk1 tge : Bool) : Bool :=
  let c := s.tileCfg t
  let (rise, fall) := s.selEdge ev t.course (if clk1 then c.src1 else c.src0)
  let open_ := !(if clk1 then c.gate1 else c.gate0) || s.gateAt ev t clk1 tge
  open_ && (if (if clk1 then c.inv1 else c.inv0) then fall else rise)

/-- The latch of a tile clock as an instant leaves it. -/
def State.putGate (s : State) (ev : FabEvent) (t : TileAddr) (clk1 tge : Bool) : State :=
  { s with fab.gates := SMap.put false s.fab.gates (gateKey t clk1) (s.gateAt ev t clk1 tge) }

/-! ### The pins of one instant -/

/-- What the pins of an instant show: the storage as it stood before the instant's first command. -/
def State.atEdge (s : State) : State :=
  { s with fab := { s.fab with les := s.fab.before.les, seamRegs := s.fab.before.seamRegs } }

/-- The instant of some clock edges: no restore strobe, and no reset line near its edge. -/
def edgeEvent (same : Bool) (edges : LineEdges) (high : List FabIn) : FabEvent :=
  { same, rises := edges.rises, falls := edges.falls, regional := edges.regional, restore := false, inWindow := false, high }

/-- A fabric event begins: the arriving signals take its levels, and the first command of an instant fixes the storage that
the instant's pins show. -/
def State.openEdge (s : State) (ev : FabEvent) : State :=
  { s with fab := { s.fab with
    high := ev.high
    before := if ev.same then s.fab.before else { les := s.fab.les, seamRegs := s.fab.seamRegs } } }

/-- The level of a point at an instant; bit `i` of the step's free value where a loop of logic leaves it open. -/
def State.tilePin (s : State) (i : Nat) (n : Node) : Bool := s.atEdge.levelOr (s.freeVal.getLsbD i) n

/-- What a flip-flop of an LE sees at one instant (03 T3.2, T3.6): its pins, the tile's reset lines as their sources drive
them, the carry into the LE, and whether its tile clock has an active edge. -/
structure FfPins where
  lutIn : BitVec 6
  x : Bool
  ce : Bool
  trA : Bool
  trB : Bool
  cin : Bool
  edge : Bool
deriving DecidableEq, Repr

/-- The pins of an LE for one of its flip-flops. A pin that a loop of logic leaves open is free. -/
def State.ffPins (s : State) (ev : FabEvent) (x : LeAddr) (ff1 : Bool) : FfPins :=
  let lv (i : Nat) (n : Node) : Bool := s.tilePin i n
  let t := x.tileAddr
  let pin (i : Nat) : Bool := lv i (.sink t (11 * x.k.val + i))
  let c := s.leCfg x
  let clk1 := if ff1 then c.clk1 else c.clk0
  { lutIn := addressOf ((List.range 6).map pin)
    x := pin (6 + b2n ff1), ce := pin (8 + b2n ff1)
    trA := lv 11 (.sink t 176), trB := lv 12 (.sink t 177)
    cin := lv 13 (.carry x)
    edge := s.tileEdge ev t clk1 (lv 14 (.net t.course (.tile (Fin.ofNat 16 t.index) (Fin.ofNat 98 (96 + b2n clk1))))) }

/-! ### What a user I/O pin drives (04 T4.10) -/

/-- The state of a pin's output: undriven, with the weak termination of io_pull in force, or driven. -/
inductive PinOut where
  | hiZ (pull : Nat)
  | driven (v : Bool)
deriving DecidableEq, Repr

/-- What a test instruction in effect makes of a pin whose cells are `out` and `oe` in the order of R541 (16 R539, R541): HIGHZ
leaves it undriven, the others drive it from the boundary register. -/
def State.testOut (s : State) (out oe : Nat) : PinOut :=
  let cell (k : Nat) : Bool := SMap.look false s.dbg.boundary (Config.boundaryPlace k)
  if s.dbg.instr != 0x04 && cell oe then .driven (cell out) else .hiZ 0

/-- What fx_out or fx_oe of FX(k) reads at the crossbar (18 R585): 0 while the brick has no image, is held in reset or lies in
a region held in reset. -/
def State.fxNet (s : State) (k : Fin 64) (oe : Bool) : Bool :=
  !s.courseHeld (fxCourse k) && s.cfg.loaded.getLsbD (fxCourse k).brick.val &&
  s.levelOr (s.freeVal.getLsbD k.val) (.net (fxCourse k) (.fx k oe))

/-- What a user I/O pin drives (T4.10; 16 R542 while a test instruction is in effect). `slot` is the place on the line of the bit that the cell drives: 0 for direct and SDR,
0 and 1 for the halves of a DDR cycle, 0 to 7 for the eighths of a gearbox word's cycle (R135). The odd pin of an LVDS pair
drives the complement of the even one (R131, R133). -/
def State.pinOut (s : State) (u : Fin 32) (pin : Fin 48) (slot : Nat) : PinOut :=
  let cfg := s.ioCfg u pin
  let c := if cfg.std = 5 then evenPin pin else pin
  let flip := cfg.std = 5 ∧ pin.val % 2 = 1
  let r := s.ioReg u c
  let net (i : Nat) : Bool := s.levelOr (s.freeVal.getLsbD i) (.net (ioCourse u c) (.io u c (Fin.ofNat 9 i)))
  let v := if cfg.reg = 0 then net 0 else r.out.getLsbD (if cfg.reg = 1 then 0 else slot)
  let oe := if cfg.reg = 0 then net 8 else r.oe
  let base := 3 * (48 * u.val + pin.val)
  if s.dbg.testActive && s.fab.vioPresent.getLsbD u.val then s.testOut (base + 1) (base + 2)
  else match s.pinState u pin with
  | .hiZ => .hiZ 0
  | .off o => if o = 1 then .driven false else if o = 2 then .driven true else .hiZ 0
  | .configured => if cfg.dir = 1 || (cfg.dir = 2 && oe) then .driven (v != decide flip) else .hiZ cfg.pull

end Sys2Proof.Machine
end

