-- ==== Sys2Proof/Machine/LinkOps.lean ====
section
/-!
DEFINITION. Lanes and bond groups: the shared operations of 08 and 09. Lane states and retirement
(08 T8.4), group and domain states (08 T8.5), the beat budget (08 R272), what the presentation of a
beat is due (08 R270, R273, R275), and the BND and LNS registers.
-/
namespace Sys2Proof.Machine
open Sys2Proof

/-! ### Lanes -/

/-- Writes lane `l`. -/
def State.setLane (s : State) (l : Nat) (f : Lane → Lane) : State :=
  { s with lanes.lanes := SMap.upd {} s.lanes.lanes l f }

/-- The PCIe controller whose lanes include `l` (09 T9.1). -/
def laneCtl (l : Nat) : Option Nat := if l < 16 then some 0 else if 128 ≤ l && l < 144 then some 1 else none

/-- Controller `c`. -/
def State.pcie (s : State) (c : Nat) : Pcie := SMap.look {} s.lanes.pcie c

/-- Writes controller `c`. -/
def State.setPcie (s : State) (c : Nat) (f : Pcie → Pcie) : State :=
  { s with lanes.pcie := SMap.upd {} s.lanes.pcie c f }

/-- The lane belongs to an enabled controller (14 R466). -/
def State.pcieLane (s : State) (l : Nat) : Bool :=
  match laneCtl l with | some c => (s.pcie c).enable | none => false

/-- LNS_REF_m. -/
def State.refs (s : State) (m : Nat) : Refs := SMap.look {} s.lanes.refs m

/-- The lane die of a lane is absent, fenced, off or isolated (R303). -/
def State.laneDieOut (s : State) (m : Nat) : Bool := !s.dieRuns (16 + m)

/-- The use codes of T9.12. -/
def useBond : BitVec 4 := 1

/-- The retrains of a lane within the last 10 s. -/
def Lane.recent (x : Lane) (now : Nat) : Nat := (x.retrainTimes.filter fun t => now < t + 10 * ticksPerS).length

/-- The floor of the equalisation window at a rate (R312): CTLE code, FFE and DFE forced. -/
def eqFloor (rate : Nat) : Nat × Bool × Bool :=
  if rate = 11 || rate = 12 || rate = 15 then (4, false, true)
  else if rate = 13 || rate = 14 then (8, true, true) else (0, false, false)

/-- The effective window of R312: ctle_lo and ctle_hi after the floor. -/
def eqWindow (rate lo hi : Nat) : Nat × Nat :=
  let l := max lo (eqFloor rate).1
  (l, max hi l)

/-- The window asked for falls below the floor: eq_not_met. -/
def eqShort (rate lo : Nat) (ffe dfe : Bool) : Bool :=
  let (f, ff, df) := eqFloor rate
  lo < f || (ff && !ffe) || (df && !dfe)

/-- The receiver has no lock: of the sync headers it starts over (R309). -/
def Lane.unlock (x : Lane) : Lane := { x with locked := false, hdrRun := 0, hdrBad := [] }

/-- eq_not_met follows the use, the rate and the window (R312). -/
def Lane.judgeEq (x : Lane) : Lane := { x with eqNotMet := x.use != 0 && eqShort x.rate.toNat x.ctleLo.toNat x.ffe x.dfe }

/-- The transmitter takes a preset and its taps (R311). -/
def Lane.setPreset (x : Lane) (p : BitVec 4) : Lane :=
  { x with preset := p, txPre := (Config.presetTaps p).1, txPost := (Config.presetTaps p).2 }

/-- A lane enters Off: data in flight is lost (R303). -/
def Lane.off (x : Lane) : Lane :=
  { x.unlock with state := .off, loop := 0, prbsGen := false, prbsChk := false, prbsLock := false
                  step := 0, good := 0, acks := 0, acksSent := 0, txSet := [], rxBlocks := [], retimed := [] }

/-- A lane starts its bring-up (R307 step 1). -/
def Lane.startBringup (x : Lane) : Lane :=
  { x.unlock with state := .bringup, step := 1, good := 0, acks := 0, acksSent := 0, failStep := 0 }

/-- The reference a lane selects. -/
def State.laneRef (s : State) (l : Nat) (sel : Bool) : BitVec 2 × BitVec 2 :=
  let r := s.refs (l / 32)
  if sel then (r.freqB, r.stateB) else (r.freqA, r.stateA)

/-- A lane in service starts (R305, R307): without a good reference it waits; a raw lane with bringup 0 skips steps
1 to 4, and outside the data level is up at once (assumption log 41). -/
def Lane.start (x : Lane) (fault : Bool) : Lane :=
  if fault then { x.unlock with state := .noRef }
  else if (x.use == 5 || x.use == 6) && !x.bringup then { x with state := .up, locked := true, step := 5 }
  else if x.use == 4 && !x.bringup then { x.startBringup with step := 5 }
  else x.startBringup

/-- Lane `l` starts. -/
def startLane (l : Nat) (s : State) : State :=
  s.setLane l fun x => x.start ((s.laneRef l x.refSel).2 == 2)

/-! ### Bond groups -/

/-- Writes group `g`. -/
def State.setGrp (s : State) (g : Nat) (f : BondGroup → BondGroup) : State :=
  { s with bond.groups := SMap.upd {} s.bond.groups g f }

/-- The lanes of a group (01 R26). -/
def groupLanes (g : Nat) : List Nat := (List.range 8).map (8 * g + ·)

/-- A group's usable lanes. -/
def BondGroup.usableCount (x : BondGroup) : Nat := popCount x.usable.toNat 8

/-- A group's lanes not retired. -/
def BondGroup.aliveCount (x : BondGroup) : Nat := 8 - popCount x.retired.toNat 8

/-- The group is in a trained state (T8.5). -/
def GrpState.trained : GrpState → Bool
  | .up | .down | .held | .peerHold => true
  | _ => false

/-- Payload in bytes per ns of 8 lanes at a bond rate (T8.1). -/
def bondRate (rate : Nat) : Nat := 50 * 2 ^ rate

/-- Bytes of a beat frame (R276, R278). -/
def beatFrameBytes (wires : Nat) (op : Bool) : Nat := 24 + 8 * wires + (if op then 16 else 0)

/-- 8 times the bytes: t_ser in ns is this over (usable lanes times the rate). -/
def serNum (wires : Nat) : Nat := 8 * beatFrameBytes wires false

/-- Ceiling division. -/
def ceilDiv (a b : Nat) : Nat := (a + b - 1) / b

/-- K_min of R272: t_link and P in ns, `n` usable lanes, `rate` the group's bond rate, `w` wires_out / 64. -/
def kMin (tLink p n rate w : Nat) : Nat :=
  let d := n * bondRate rate
  max 2 (ceilDiv ((4 + tLink + 4 + 2 + 8) * d + serNum w) (p * d) + 1)

/-- The least exact-wiring period of one group, in ns rounded up (R272). -/
def pMin (tLink n rate w ts tr : Nat) : Nat :=
  let d := n * bondRate rate
  ceilDiv ((ts + 4 + tLink + 4 + 2 + tr + 8) * d + serNum w) d

/-- The group falls short under R272: P below the domain's P_min, K below K_min, or the send time past the beat. -/
def kShort (pipelined : Bool) (k tLink p n rate w pMinDomain : Nat) : Bool :=
  let d := n * bondRate rate
  if pipelined then k < kMin tLink p n rate w || 4 * d + serNum w > p * d else p < pMinDomain

/-- The stop distance D of R280. -/
def stopDistance (h kMax : Nat) : Nat := h * (kMax + 1) + 1

/-- P_min of the domain: the largest over its groups (R272). -/
def State.pMinAll (s : State) : Nat :=
  (((List.range 32).filter fun g => (s.grp g).state.trained && (s.grp g).usableCount != 0).map fun g =>
    let x := s.grp g
    pMin x.tLink.toNat x.usableCount x.rate.toNat x.wiresOut.toNat s.bond.sampleDelay.toNat s.bond.presentMargin.toNat).max?.getD 0

/-- Recomputes a group's budget after its usable lanes changed (R288): K_min, k_short and, where the group now falls short,
0x6130 with the usable lanes. -/
def rebudget (g : Nat) (s : State) : State :=
  let x := s.grp g
  let n := x.usableCount
  if n = 0 then s
  else
    let p := s.bond.period.toNat
    let km := kMin x.tLink.toNat p n x.rate.toNat x.wiresOut.toNat
    let short := kShort s.bond.pipelined x.k.toNat x.tLink.toNat p n x.rate.toNat x.wiresOut.toNat s.pMinAll
    let s := s.setGrp g fun x => { x with kMin := BitVec.ofNat 8 (min 255 km), kShort := short }
    if short then logEvent 0x6130 [g, x.usable.toNat, if s.bond.pipelined then km else s.pMinAll] s else s

/-- A group's lanes in striping change. While it is UP its budget follows (R288), but not under the part's own Hold. -/
def setUsable (g : Nat) (m : BitVec 8) (s : State) : State :=
  let x := s.grp g
  if m = x.usable then s
  else
    let s := s.setGrp g fun x => { x with usable := m }
    if x.state == .up && !x.holding then rebudget g s else s

/-- The groups of the domain in a given state. -/
def State.groupsIn (s : State) (st : GrpState) : List Nat :=
  (List.range 32).filter fun g => (s.grp g).state == st

/-- R289: the domain state that its groups give; a domain that none of them blocks is STOPPED while run
control holds the beat line, else RUNNING. -/
def State.domainOf (s : State) : DomState :=
  if (s.groupsIn .retired).length + (s.groupsIn .peerLeft).length ≠ 0 then .halted
  else if (s.groupsIn .held).length ≠ 0 then .held
  else if (s.groupsIn .down).length ≠ 0 then .frozen
  else if s.cap.stopped.getLsbD s.bond.beatLine.toNat then .stopped else .running

/-- The domain is trained: its state follows from its groups (R289). -/
def DomState.live : DomState → Bool
  | .stopped | .running | .frozen | .held | .halted => true
  | _ => false

/-- The part is a domain member (07 R247). -/
def State.isMember (s : State) : Bool := s.bond.state.live

/-! ### Frames (R276 to R279) -/

/-- The op block of a domain operation (R278). -/
def opBlock (o : DomOp) : List Byte :=
  [o.op, o.origin] ++ leBytes 2 o.opSeq.toNat ++ leBytes 4 o.arg.toNat ++ leBytes 8 o.target.toNat

/-- The operation of an op block. -/
def opOfBlock (bs : List Byte) : DomOp :=
  { op := nth 0 bs 0, origin := nth 0 bs 1, opSeq := BitVec.ofNat 16 (fieldAt bs 2 2), arg := BitVec.ofNat 32 (fieldAt bs 4 4)
    target := BitVec.ofNat 64 (fieldAt bs 8 8) }

/-- A whole frame: the 16-byte header of Table 8.3, the payload and the CRC-64 over both (R276). -/
def frameBytes (kind flags : Nat) (seq : BitVec 12) (ackValid : Bool) (ack : BitVec 12) (beat session : W32) (payload : List Byte) :
    List Byte :=
  let bs := leBytes 1 kind ++ leBytes 1 flags ++ leBytes 2 seq.toNat ++ leBytes 2 (ack.toNat + 32768 * b2n ackValid) ++
    leBytes 2 payload.length ++ leBytes 4 beat.toNat ++ leBytes 4 session.toNat ++ payload
  bs ++ leBytes 8 (Crypto.crc64 bs).toNat

/-- A frame as it goes out: its op block follows the samples (R278). -/
def wireBytes (f : Frame) : List Byte :=
  frameBytes f.kind.toNat (b2n f.op.isSome) f.seq f.ackValid f.ack f.beat f.session
    (f.payload ++ match f.op with | some o => opBlock o | none => [])

/-- The bytes of a frame that has arrived are whole and their CRC-64 holds. -/
def frameGood (bs : List Byte) : Bool :=
  24 ≤ bs.length && bs.length == 24 + fieldAt bs 6 2 &&
  (Crypto.crc64 (bs.take (bs.length - 8))).toNat == fieldAt bs (bs.length - 8) 8

/-- The frame that bytes stand for. -/
def frameOf (bs : List Byte) : Frame :=
  let n := fieldAt bs 6 2
  let op := fieldAt bs 0 1 = 0 && bitAt (fieldAt bs 1 1) 0 && 16 ≤ n
  { kind := nth 0 bs 0, seq := BitVec.ofNat 12 (fieldAt bs 2 2), ackValid := bitAt (fieldAt bs 4 2) 15
    ack := BitVec.ofNat 12 (fieldAt bs 4 2), beat := BitVec.ofNat 32 (fieldAt bs 8 4), session := BitVec.ofNat 32 (fieldAt bs 12 4)
    payload := slice bs 16 (if op then n - 16 else n), op := if op then some (opOfBlock (slice bs n 16)) else none }

/-- Bytes go out striped in 8-byte words over the usable lanes, in lane order (R276), each word one data block of its lane
(09 R308; which blocks of a frame are control blocks the spec does not say: assumption log 82). -/
def BondGroup.transmit (x : BondGroup) (bs : List Byte) : BondGroup :=
  let lanes := bitList x.usable.toNat 8
  let words := (chunksOf 8 bs.length bs).zipIdx
  (lanes.zipIdx).foldl (fun x p =>
    let mine := words.filter fun w => w.2 % lanes.length == p.2
    let (ls, st) := mine.foldl (fun (acc : List (BitVec 2) × BitVec 58) w =>
      let (l, st) := encodeBlock (x.rate != 0) false (BitVec.ofNat 64 (leNat w.1)) acc.2
      (acc.1 ++ l, st)) ([], SMap.look 0 x.scramblers p.1)
    { x with scramblers := SMap.put 0 x.scramblers p.1 st, sent := SMap.put [] x.sent p.1 ls }) x

/-- A numbered frame goes out on a group and waits in its replay buffer for the acknowledgement (R277). -/
def sendFrame (g : Nat) (kind : BitVec 8) (beat : W32) (payload : List Byte) (op : Option DomOp) (s : State) : State :=
  s.setGrp g fun x =>
    let f : Frame := { kind, seq := x.sendSeq, ackValid := true, ack := x.recvSeq - 1, beat, session := x.session, payload, op }
    { x.transmit (wireBytes f) with sendSeq := x.sendSeq + 1, replayBuf := x.replayBuf ++ [f] }

/-- The replay buffer is full: 256 frames or 64 KiB (R277). -/
def BondGroup.bufferFull (x : BondGroup) : Bool :=
  256 ≤ x.replayBuf.length || 65536 ≤ (x.replayBuf.map fun f => 24 + f.payload.length + if f.op.isSome then 16 else 0).sum

/-- The number of a control frame's kind, its argument and its payload: an operation and a time travel in the payload
(assumption log 82). -/
def Ctrl.parts : Ctrl → Nat × Nat × List Byte
  | .nak seq => (0, seq.toNat, [])
  | .hold => (1, 0, [])
  | .resume => (2, 0, [])
  | .leave => (3, 0, [])
  | .op o => (4, 0, opBlock o)
  | .time t => (5, 0, leBytes 8 t.toNat)

/-- The bytes of a control frame (T8.3): not numbered, its code and argument in the beat field. -/
def BondGroup.ctrlBytes (x : BondGroup) (c : Ctrl) : List Byte :=
  let (k, a, p) := c.parts
  frameBytes 3 0 0 true (x.recvSeq - 1) (BitVec.ofNat 32 (a + (Config.ctrlCode k).toNat * 2 ^ 24)) x.session p

/-- A control frame goes out on a group (R279). -/
def sendCtrlOn (c : Ctrl) (g : Nat) (s : State) : State :=
  s.setGrp g fun x =>
    let bs := x.ctrlBytes c
    { x.transmit bs with ctrlOut := x.ctrlOut ++ [c], room := x.room - 8 * bs.length }

/-- The operation only brings a value: 64 bits that another one needs, ahead of which it travels, or the beat of a checkpoint. It
goes in a CTRL frame and never waits for a beat (assumption log 47). -/
def isOperand (o : DomOp) : Bool := o.op == 10 || o.op == 11 || o.op == 13

/-- A domain operation goes out on a group: while beats run it waits for the next beat frame's op block, else it goes in a CTRL
frame (R280). -/
def sendOpOn (o : DomOp) (g : Nat) (s : State) : State :=
  if s.bond.state == .running && !isOperand o then s.setGrp g fun x => { x with opsOut := x.opsOut ++ [o] }
  else sendCtrlOn (.op o) g s

/-- The operations that wait for a beat frame go out in CTRL frames, as beats no longer run. -/
def flushOps (g : Nat) (s : State) : State :=
  let os := (s.grp g).opsOut
  os.foldl (fun s o => sendCtrlOn (.op o) g s) (s.setGrp g fun x => { x with opsOut := [] })

/-- The TXN frame that a group would start next: a response before a request (R279). -/
def BondGroup.nextTxn (x : BondGroup) : Option (BitVec 8 × List Byte) :=
  match x.txq.find? (·.1 == 2) with
  | some f => some f
  | none => x.txq.head?

/-- TXN frames start in their order while the group may send, the replay buffer has room and, while beats run, they end
before the next beat frame is due (R277, R279). The first argument bounds them. -/
def pumpGo : Nat → Nat → State → State
  | 0, _, s => s
  | n + 1, g, s =>
    let x := s.grp g
    match x.nextTxn with
    | none => s
    | some f =>
      let cost := 8 * (24 + f.2.length)
      if x.state != .up || x.holding || x.bufferFull || (s.bond.state == .running && decide (x.room < cost)) then s
      else pumpGo n g (sendFrame g f.1 0 f.2 none (s.setGrp g fun x => { x with txq := x.txq.erase f, room := x.room - cost }))

/-- A group starts what it can of the TXN frames that wait. -/
def pump (g : Nat) (s : State) : State := pumpGo (s.grp g).txq.length g s

/-- A TXN frame joins those that wait on a group, its payload a multiple of 8 bytes (R276, R279). -/
def sendTxnFrame (g : Nat) (kind : BitVec 8) (payload : List Byte) (s : State) : State :=
  pump g (s.setGrp g fun x => { x with txq := x.txq ++ [(kind, padTo (roundUp 8 payload.length) payload)] })

/-! ### Groups and the domain (R287 to R292) -/

/-- Sets the domain state from the groups (R289); where beats no longer run, operations and TXN frames no longer wait for
them. -/
def redomain (s : State) : State :=
  if s.bond.state.live then
    let st := s.domainOf
    let thaw := st == .running || st == .stopped
    let t : State := { s with bond := { s.bond with
      state := st, freezeCause := if thaw then 0 else s.bond.freezeCause, freezeGroup := if thaw then 0 else s.bond.freezeGroup } }
    if s.bond.state == .running && st != .running then (t.groupsIn .up).foldl (fun s g => pump g (flushOps g s)) t else t
  else s

/-- A group is RETIRED when fewer than 6 of its lanes are not (T8.5). -/
def checkRetired (g : Nat) (s : State) : State :=
  let x := s.grp g
  if (x.state == .down || x.state == .held) && x.aliveCount < 6 then
    let beat := s.bond.beat.toNat
    let s := s.setGrp g fun x => { x with state := .retired }
    redomain (logEvent 0x6133 [beat, g] (logEvent 0x6123 [g, beat] s))
  else s

/-- A DOWN group goes to HELD (T8.5). -/
def groupHeld (g : Nat) (s : State) : State :=
  if (s.grp g).state == .down then
    let s := s.setGrp g fun x => { x with state := .held, cause := 12 }
    redomain (logEvent 0x6122 [g, s.bond.beat.toNat] s)
  else s

/-- The lowest lane of the Ethernet port that holds lane `l`. -/
def State.ethPort (s : State) (l : Nat) : Option Nat :=
  ((List.range 8).map (l / 8 * 8 + ·)).find? fun q =>
    (s.lane q).ethWidth != 0 && decide (q ≤ l) && decide (l < q + (s.lane q).ethWidth)

/-- The Ethernet port of lane `l` goes down: 0 lock, 1 lane retired, 2 command, 3 mode (09 R325). -/
def ethDown (l cause : Nat) (s : State) : State :=
  match s.ethPort l with
  | none => s
  | some q =>
    if (s.lane q).ethUp then logEvent 0x6021 [q, cause] (s.setLane q fun x => { x with ethUp := false }) else s

/-- The Ethernet ports that are up go down for a cause of the whole part. -/
def ethAllDown (cause : Nat) (s : State) : State :=
  (s.lanes.lanes.map (·.1)).foldl (fun s l => if (s.lane l).ethUp then ethDown l cause s else s) s

/-- A lane is retired (T8.4): it stays so until a full reset (R288). -/
def retireLane (l : Nat) (cause : BitVec 2) (errors : Nat) (s : State) : State :=
  let x := s.lane l
  let s := s.setLane l fun x => { x.off with state := .retired, retireCause := cause, loop := x.loop }
  let s := logEvent 0x6003 [l, cause.toNat, errors] s
  if x.use == useBond then
    let g := l / 8
    let s := s.setGrp g fun y => { y with retired := setBit y.retired (l % 8) true }
    checkRetired g (setUsable g (setBit (s.grp g).usable (l % 8) false) s)
  else if x.use == 3 then ethDown l 1 s
  else match laneCtl l with
    | some c => if x.use == 2 then s.setPcie c fun y => { y with retired := setBit y.retired (l % 16) true } else s
    | none => s

/-- Starts a counted retrain of a lane, or retires it where that would be its third within 10 s (T8.4). A lane that waits for
its reference, or idles in a Hold, starts none (09 R305, T8.5). -/
def startRetrain (l : Nat) (s : State) : State :=
  let x := s.lane l
  if x.state == .retired || x.state == .retraining || x.state == .noRef || x.state == .idle then s
  else if x.recent s.time ≥ 2 then retireLane l 0 0 s
  else
    let s := s.setLane l fun x =>
      { x.unlock with
        state := .retraining, retrains := satAdd x.retrains 1
        retrainTimes := s.time :: (x.retrainTimes.filter fun t => s.time < t + 10 * ticksPerS) }
    if x.use == useBond then
      let s := s.setGrp (l / 8) fun y => { y with retrains := satAdd y.retrains 1 }
      setUsable (l / 8) (setBit (s.grp (l / 8)).usable (l % 8) false) s
    else s

/-- A group goes DOWN (T8.5): sending stops, the replay buffer stays, its lanes retrain, and the domain
freezes, which a peer's return from Hold that failed does not log; with a resume window of 0 it goes on to HELD at once
(R290). -/
def groupDown (g : Nat) (cause : BitVec 4) (s : State) : State :=
  let x := s.grp g
  if x.state == .up || x.state == .peerHold then
    let beat := s.bond.beat.toNat
    let first := !(s.bond.state == .frozen || s.bond.state == .held || s.bond.state == .halted)
    let s := s.setGrp g fun x => { x with state := .down, cause := cause, downAt := s.time, resuming := false, holding := false }
    let s := logEvent 0x6120 [g, beat, cause.toNat] s
    let s := if x.state == .up then logEvent 0x6131 [beat, g] s else s
    let s := if first then
        { s with bond := { s.bond with freezeCause := cause, freezeGroup := BitVec.ofNat 5 g, freezeAt := s.time } }
      else s
    let s := redomain s
    let s := (groupLanes g).foldl (fun s l => startRetrain l s) s
    let s := checkRetired g (s.setGrp g fun x => { x with usable := 0 })
    if s.bond.resumeMs = 0 then groupHeld g s else s
  else s

/-- R289: an UP group with fewer than 6 usable lanes goes DOWN; in the part's own Hold its lanes idle. -/
def checkLanes (g : Nat) (s : State) : State :=
  let x := s.grp g
  if x.state == .up && !x.holding && x.usableCount < 6 then groupDown g 2 s else s

/-- The frames from a sequence number on go out again, in order: counted and logged, `cause` 0 CRC, 1 gap, 2 timer
(R277). -/
def sendAgain (g : Nat) (seq : BitVec 12) (cause : Nat) (s : State) : State :=
  let s := s.setGrp g fun x =>
    let again := x.replayBuf.filter fun f => (f.seq - seq).toNat < 2048
    let x := again.foldl (fun (x : BondGroup) f => x.transmit (wireBytes f)) x
    { x with replays := satAdd x.replays 1
             replayed := again.foldl (fun m f => SMap.upd 0 m f.seq.toNat (· + 1)) x.replayed }
  logEvent 0x6101 [g, seq.toNat, cause] s

/-- As `sendAgain`; the 8th replay of one frame takes the group DOWN (T8.5). -/
def replay (g : Nat) (seq : BitVec 12) (cause : Nat) (s : State) : State :=
  let s := sendAgain g seq cause s
  if (s.grp g).replayed.any fun e => decide (8 ≤ e.2) then groupDown g 8 s else s

/-- A replay from the last acknowledged frame that no NAK and no timer asked for: at a lane's removal from striping and as a
group resumes (T8.4, T8.5). Which cause 0x6101 then carries the spec does not say: a free value (assumption log 83). -/
def replayAll (g : Nat) (s : State) : State :=
  match (s.grp g).replayBuf with
  | [] => s
  | f :: _ => replay g f.seq (s.freeVal.toNat % 3) s.stepFree

/-- A DOWN or HELD group with 6 lanes retrained returns to UP, with its replay (T8.5, R290); a group
that RESUME has released returns from PEER_HOLD. -/
def groupResume (g : Nat) (s : State) : State :=
  let x := s.grp g
  if x.usableCount < 6 then s
  else if x.state == .down || (x.state == .held && s.lanes.waits.any fun w => w.1.any fun l => l / 8 == g) then
    let us := (s.time - x.downAt) / 100
    let s := rebudget g (s.setGrp g fun x => { x with state := .up, cause := 0, replayed := [] })
    pump g (replayAll g (redomain (logEvent 0x6121 [g, s.bond.beat.toNat, us] s)))
  else if x.state == .peerHold && x.resuming then
    pump g (redomain (rebudget g (s.setGrp g fun x => { x with state := .up, resuming := false })))
  else s

/-- A LEAVE frame or a changed session (T8.5): cause 10 peer left, 11 session changed. Where the domain was not frozen, its
freeze starts here (DEDUCED from T8.8 and T8.10, assumption log 83). -/
def peerLeft (g : Nat) (cause : BitVec 4) (s : State) : State :=
  let x := s.grp g
  if x.state.trained then
    let beat := s.bond.beat.toNat
    let first := !(s.bond.state == .frozen || s.bond.state == .held || s.bond.state == .halted)
    let s := s.setGrp g fun x => { x with state := .peerLeft, cause := cause, holding := false }
    let s := if first then
        { s with bond := { s.bond with freezeCause := cause, freezeGroup := BitVec.ofNat 5 g, freezeAt := s.time } }
      else s
    redomain (logEvent 0x6133 [beat, g] (logEvent 0x6124 [g, x.peerDevice.toNat, cause.toNat] s))
  else s

/-- Sends a control frame on every UP group (R292). -/
def sendCtrl (c : Ctrl) (s : State) : State := (s.groupsIn .up).foldl (fun s g => sendCtrlOn c g s) s

/-- LEAVE on every UP group (R292). -/
def sendLeave (s : State) : State := sendCtrl .leave s

/-- Run control stops the DUT lines; a stopped beat line stops the domain. -/
def stopDut (s : State) : State := redomain (keepEdges stopLines s)

/-- The level that the fabric drives onto outgoing fold wire `w` of a group (R265, R266): its course's net, 0 while the course
is isolated. A loop of logic leaves it free (assumption log 71). -/
def State.foldOut (s : State) (g w : Nat) : Bool :=
  s.levelOr ((Config.free (s.freeNo + w / 64)).getLsbD (w % 64)) (.net (foldCourse (Fin.ofNat 32 g) w) (.fold (Fin.ofNat 32 g) (Fin.ofNat 4096 w)))

/-- The samples of a group's outgoing wires 0 to wires_out - 1 (R266), eight to a byte. -/
def State.outSamples (s : State) (g : Nat) : List Byte :=
  (List.range (8 * (s.grp g).wiresOut.toNat)).map fun i =>
    BitVec.ofNat 8 (bitsNat ((List.range 8).map fun k => s.foldOut g (8 * i + k)))

/-- The op block of the next beat frame: the first domain operation that waits on the group. -/
def BondGroup.nextOp (x : BondGroup) : Option DomOp := x.opsOut.head?

/-- What a group can send after a beat frame until the next is due, in eighths of a byte (R279); with PAM4 lanes at risk it
leaves a gap of one more frame (R293). -/
def State.roomAfter (s : State) (g cost : Nat) : Nat :=
  let x := s.grp g
  s.bond.period.toNat * x.usableCount * bondRate x.rate.toNat - (if 2 ≤ s.clk.mon.stage.toNat then 2 * cost else cost)

/-- One group's frame of beat `n`, then the TXN frames that fit. -/
def sendBeat (n g : Nat) (s : State) : State :=
  let x := s.grp g
  let bytes := s.outSamples g
  let op := x.nextOp
  let s := { s with freeNo := s.freeNo + x.wiresOut.toNat }
  let room := s.roomAfter g (8 * beatFrameBytes x.wiresOut.toNat op.isSome)
  let s := s.setGrp g fun x =>
    { x with outgoing := bytes, room, opsOut := x.opsOut.drop 1 }
  pump g (sendFrame g 0 (BitVec.ofNat 32 n) bytes op s)

/-- Every UP group sends the frame of beat `n`, once (R274). -/
def sendBeats (n : Nat) (s : State) : State :=
  if n ≤ s.bond.txBeat.toNat then s
  else (s.groupsIn .up).foldl (fun s g => sendBeat n g s) { s with bond.txBeat := BitVec.ofNat 64 n }

/-- Every DUT line restarts; with exact wiring the samples of the beat that begins are taken in it (R270). -/
def startDut (s : State) : State :=
  let s := redomain (restartLines s)
  if s.bond.state == .running && !s.bond.pipelined then sendBeats (s.bond.beat.toNat + 1) s else s

/-! ### Beats (R270, R273, R275) -/

/-- The beat whose samples are presented while beat `b + 1` runs: b + 1 - K; none before the first. -/
def dueBeat (b k : Nat) : Option Nat := if k ≤ b then some (b + 1 - k) else none

/-- The samples of beat `n` have arrived. -/
def BondGroup.hasBeat (x : BondGroup) (n : Nat) : Bool :=
  n = 0 || n ≤ x.rxBeat.toNat

/-- R273: the frames of a group let beat `b + 1` end: exact wiring needs the samples of beat b + 1,
pipelined wiring those of beat b + 2 - K. -/
def BondGroup.gateOpen (x : BondGroup) (pipelined : Bool) (b : Nat) : Bool :=
  if pipelined then x.hasBeat (b + 2 - x.k.toNat) else x.hasBeat (b + 1)

/-- Presents what is due on the incoming fold wires in the beat after edge `b` (R270, R275). -/
def BondGroup.present (x : BondGroup) (b : Nat) : BondGroup :=
  match dueBeat b x.k.toNat with
  | none => { x with presented := [] }
  | some n =>
    match x.incoming.find? fun e => e.1.toNat == n with
    | some e => { x with presented := e.2, incoming := x.incoming.filter fun e => e.1.toNat > n }
    | none => x

/-- The group is in bond use and trained. -/
def BondGroup.inDomain (x : BondGroup) : Bool := x.use && x.state != .unused && x.state != .configured

/-- R273: the beat gate of the part passes. -/
def State.gatePasses (s : State) : Bool :=
  s.bond.state == .running && s.power.mode != .hold &&
  !s.cap.stopped.getLsbD s.bond.beatLine.toNat && !s.cap.paused.getLsbD s.bond.beatLine.toNat &&
  (List.range 32).all fun g =>
    let x := s.grp g
    !x.use || (x.state == .up && !x.holding && x.gateOpen s.bond.pipelined s.bond.beat.toNat)

/-! ### Domain operations (R280, R281) -/

/-- The identity of an operation: origin and op_seq. -/
def opKey (o : DomOp) : Nat := o.origin.toNat * 65536 + o.opSeq.toNat

/-- An operation becomes known: forwarded on every UP group but the one it came on, and scheduled once
(R280). -/
def learnOp (from_ : Option Nat) (o : DomOp) (s : State) : State :=
  let k := opKey o
  if s.bond.seenOps.contains k then s
  else
    let s := ((s.groupsIn .up).filter fun g => some g != from_).foldl (fun s g => sendOpOn o g s) s
    { s with bond := { s.bond with seenOps := k :: s.bond.seenOps, ops := s.bond.ops ++ [o] } }

/-- The domain's stop distance D. -/
def State.dist (s : State) : Nat := s.bond.dist.toNat

/-! ### Registers of the BND block (T8.6 to T8.11) -/

/-- Codes of T8.9. -/
def GrpState.code : GrpState → Nat
  | .unused => 0 | .configured => 1 | .training => 2 | .up => 3 | .down => 4 | .held => 5
  | .peerHold => 6 | .retired => 7 | .peerLeft => 8 | .trainFailed => 9

/-- Codes of T8.7. -/
def DomState.code : DomState → Nat
  | .unconfigured => 0 | .configured => 1 | .training => 2 | .stopped => 3 | .running => 4
  | .frozen => 5 | .held => 6 | .halted => 7

/-- BND_DOMAIN. -/
def State.bndDomain (s : State) : Nat :=
  let b := s.bond
  b.beatLine.toNat + b.device.toNat * 2 ^ 16 + b2n b.pipelined * 2 ^ 24 + b2n b.idSource * 2 ^ 25 + b.state.code * 2 ^ 28

/-- BND_FREEZE (T8.8). -/
def State.bndFreeze (s : State) : Nat :=
  let b := s.bond
  if b.state == .frozen || b.state == .held || b.state == .halted then
    min 65535 ((s.time - b.freezeAt) / 1000000) + b.freezeGroup.toNat * 2 ^ 16 + b.freezeCause.toNat * 2 ^ 24 + 2 ^ 31
  else 0

/-- BND_LOCKED_q (T8.11). -/
def State.bndLocked (s : State) (q : Nat) : Nat :=
  let e (i : Nat) : Nat :=
    let v := SMap.look (0, 0) s.bond.locked i
    if v.2 = 0 then 0 else v.2.toNat + v.1.toNat * 2 ^ 8 + 2 ^ 15
  e (2 * q) + e (2 * q + 1) * 65536

/-- A word of a group block (T8.9). -/
def State.grpWord (s : State) (g i : Nat) : Nat :=
  let x := s.grp g
  match i with
  | 0 => b2n x.kShort * 2 ^ 7 + x.retired.toNat * 2 ^ 8 + x.usable.toNat * 2 ^ 16 + x.cause.toNat * 2 ^ 24 + x.state.code * 2 ^ 28
  | 1 => x.k.toNat * 2 ^ 8 + x.peerDevice.toNat * 2 ^ 16 + x.peerGroup.toNat * 2 ^ 24 + x.rate.toNat * 2 ^ 29 + b2n x.use * 2 ^ 31
  | 2 => x.tLink.toNat + x.kMin.toNat * 2 ^ 24
  | 3 => x.crc.toNat
  | 4 => x.replays.toNat
  | 5 => x.retrains.toNat
  | 6 => x.wiresOut.toNat + x.wiresIn.toNat * 2 ^ 16
  | _ => 0

/-- A bond window. -/
def State.win (s : State) (w : Nat) : Window := SMap.look {} s.bond.windows w

/-- Reads a register of the BND block. -/
def State.readBnd (s : State) (off : Nat) : Nat :=
  let b := s.bond
  if off = 0x00 then s.bndDomain
  else if off = 0x04 then b.domainId.toNat
  else if off = 0x08 then b.members.toNat % 2 ^ 32
  else if off = 0x0C then b.members.toNat / 2 ^ 32
  else if off = 0x10 then b.beat.toNat % 2 ^ 32
  else if off = 0x14 then b.beat.toNat / 2 ^ 32
  else if off = 0x18 then b.period.toNat
  else if off = 0x1C then b.presentMargin.toNat * 2 ^ 16 + b.sampleDelay.toNat * 2 ^ 24
  else if off = 0x20 then b.resumeMs.toNat
  else if off = 0x24 then b.stretchBeats.toNat
  else if off = 0x28 then min (2 ^ 32 - 1) (b.stretchNs / 1000)
  else if off = 0x2C then b.overruns.toNat
  else if off = 0x30 then s.bndFreeze
  else if off = 0x3C then b.dist.toNat + b.hops.toNat * 2 ^ 16
  else if 0x40 ≤ off && off < 0x50 then s.bndLocked ((off - 0x40) / 4)
  else if 0x100 ≤ off && off < 0x500 then s.grpWord ((off - 0x100) / 32) (off % 32 / 4)
  else if 0x500 ≤ off && off < 0x600 then
    let w := s.win ((off - 0x500) / 16)
    match off % 16 / 4 with
    | 0 => w.device.toNat + b2n w.en * 2 ^ 31
    | 1 => w.base.toNat % 2 ^ 32
    | 2 => w.base.toNat / 2 ^ 32
    | _ => 0
  else if 0x600 ≤ off && off < 0x700 then
    let r := SMap.look 0 b.routes ((off - 0x600) / 4)
    if r = 0 then 0 else r - 1 + 2 ^ 31
  else 0

/-! ### Registers of the LNS block (T9.10 to T9.14) -/

/-- Codes of T9.13. -/
def LaneState.code : LaneState → Nat
  | .off => 0 | .noRef => 1 | .bringup => 2 | .up => 3 | .retraining => 4 | .retired => 5 | .failed => 6 | .idle => 7

/-- LNS_CFG_l. -/
def Lane.cfgWord (x : Lane) : Nat :=
  b2n x.dfe * 8 + b2n x.ffe * 16 + x.ctleHi.toNat * 2 ^ 5 + x.ctleLo.toNat * 2 ^ 10 + b2n x.bringup * 2 ^ 15 +
  x.preset.toNat * 2 ^ 16 + x.loop.toNat * 2 ^ 20 + b2n x.refSel * 2 ^ 23 + x.rate.toNat * 2 ^ 24 + x.use.toNat * 2 ^ 28

/-- LNS_STATE_l. -/
def Lane.stateWord (x : Lane) : Nat :=
  x.failStep.toNat + b2n x.prbsInvert * 2 ^ 14 + x.prbsPattern.toNat * 2 ^ 15 + b2n x.prbsLock * 2 ^ 18 +
  b2n x.prbsChk * 2 ^ 19 + b2n x.prbsGen * 2 ^ 20 + b2n x.margining * 2 ^ 21 + b2n x.scanBusy * 2 ^ 22 +
  b2n x.atRisk * 2 ^ 23 + b2n x.eqNotMet * 2 ^ 24 + b2n x.locked * 2 ^ 25 + x.retireCause.toNat * 2 ^ 26 +
  x.state.code * 2 ^ 28

/-- One of the 12 registers of a lane. -/
def State.laneWord (s : State) (l i : Nat) : Nat :=
  let x := s.lane l
  match i with
  | 0 => x.cfgWord
  | 1 => x.stateWord
  | 2 => x.txPost.toNat + x.txPre.toNat * 2 ^ 8 + x.dfeH1.toNat * 2 ^ 16 + x.ctle.toNat * 2 ^ 27
  | 3 => min 255 (x.recent s.time) * 2 ^ 8 + x.retrains.toNat * 2 ^ 16
  | 4 => x.prbsErr.toNat % 2 ^ 32
  | 5 => x.prbsErr.toNat / 2 ^ 32
  | 6 => x.prbsBits.toNat % 2 ^ 32
  | 7 => x.prbsBits.toNat / 2 ^ 32
  | 8 => x.codeErr.toNat
  | 9 => x.ethCorr.toNat
  | 10 => x.ethUncorr.toNat
  | 11 => x.ethSym.toNat
  | _ => 0

/-- LNS_REF_m. -/
def Refs.word (r : Refs) : Nat :=
  r.freqA.toNat + r.freqB.toNat * 4 + r.stateA.toNat * 2 ^ 8 + r.stateB.toNat * 2 ^ 10

/-- One of the six registers of a controller. -/
def State.pcieWord (s : State) (c i : Nat) : Nat :=
  let x := s.pcie c
  match i with
  | 0 => x.maxRate.toNat * 2 ^ 24 + x.maxWidth.toNat * 2 ^ 28 + b2n x.enable * 2 ^ 31
  | 1 => x.retired.toNat + b2n x.d3hot * 2 ^ 18 + b2n x.bme * 2 ^ 19 + b2n x.flit * 2 ^ 20 + x.rate.toNat * 2 ^ 21 +
      x.width.toNat * 2 ^ 25 + x.ltssm.toNat * 2 ^ 28
  | 2 => x.b4base.toNat % 2 ^ 32
  | 3 => x.b4base.toNat / 2 ^ 32
  | 4 => x.hbase.toNat % 2 ^ 32
  | 5 => x.hbase.toNat / 2 ^ 32
  | _ => 0

/-- Reads a register of the LNS block. -/
def State.readLns (s : State) (off : Nat) : Nat :=
  if off < 0x20 then (s.refs (off / 4)).word
  else if 0x40 ≤ off && off < 0x80 then s.pcieWord ((off - 0x40) / 32) (off % 32 / 4)
  else if 0x1000 ≤ off && off < 0x5000 then s.laneWord ((off - 0x1000) / 64) (off % 64 / 4)
  else 0

end Sys2Proof.Machine
end

