-- ==== Sys2Proof/Machine/GrtMap.lean ====
section
/-!
DEFINITION. Grout: endpoints and the address map (10 R338, R339), routes and the units a fence covers
(10 R335, R340, R359), access tables with their verdict caches (14 R479 to R485).
-/
namespace Sys2Proof.Machine
open Sys2Proof

/-! ### Endpoints and masters -/

/-- The number of an endpoint. -/
def epKey (e : Endpoint) : Nat := (e.y * 36 + e.x) * 4 + e.ep

/-- The endpoint of a number. -/
def epOfKey (k : Nat) : Endpoint := { x := k / 4 % 36, y := k / 144, ep := k % 4 }

/-- R338: the endpoint exists on this part. -/
def State.endpointExists (s : State) (e : Endpoint) : Bool :=
  e.y < 16 &&
  (if e.x < 4 then
    e.ep < 3 || e.x = 3 || (e.x = 1 && (e.y = 7 || e.y = 8)) || (e.x = 2 && e.y = 8) ||
      (e.x = 0 && (e.y = 7 || e.y = 8) && s.part.guestVariant)
   else if e.x < 36 then e.ep < 2 || (e.ep = 2 && (e.y = 0 || e.y = 15))
   else false) && e.ep < 4

/-- The steward's endpoint. -/
def stewardEp : Endpoint := { x := 1, y := 7, ep := 3 }

/-- The configuration controller's endpoint. -/
def configEp : Endpoint := { x := 1, y := 8, ep := 3 }

/-- The endpoint of the hub control blocks. -/
def hubEp : Endpoint := { x := 2, y := 8, ep := 3 }

/-- The endpoint of fabric port `q` = 64 n + p. -/
def portEp (q : Nat) : Endpoint :=
  { x := 4 + 8 * (q / 64 % 4) + q % 8, y := 8 * (q / 256) + q % 64 / 8, ep := 0 }

/-- The endpoint of engine `e` (01 R25). -/
def engineEp (e : Nat) : Endpoint := { x := e / 3 % 4, y := e / 12, ep := e % 3 }

/-- The endpoint of DRAM port `p` = 2 c + j. -/
def dramEp (p : Nat) : Endpoint := { x := 3, y := p, ep := 3 }

/-- The DRAM port that serves an address (R339). -/
def dramPortOf (a : Nat) : Nat := 2 * bitsAt a 8 3 + bitsAt a 11 1

/-- The unit an endpoint belongs to (R359). -/
def unitOf (e : Endpoint) : Option Nat :=
  if e.x < 4 then (if e.x = 0 && e.ep = 3 then some 16 else none)
  else if e.ep = 2 then some (8 + (if e.y = 0 then 0 else 4) + (e.x - 4) / 8)
  else brickOfRouter e.x e.y

/-- The routers that serve a unit. -/
def unitRouters (u : Nat) : List Nat :=
  if u < 8 then
    (List.range 64).map fun i => 36 * (8 * (u / 4) + i / 8) + 4 + 8 * (u % 4) + i % 8
  else if u < 16 then
    (List.range 8).map fun i => 36 * (if u < 12 then 0 else 15) + 4 + 8 * ((u - 8) % 4) + i
  else [36 * 7, 36 * 8]

/-- The endpoint belongs to the unit. -/
def inUnit (u : Nat) (e : Endpoint) : Bool := unitOf e == some u

/-- A unit held under 01 R17 to R19 or R29 (T10.9). -/
def State.unitHeld (s : State) (u : Nat) : Bool := (unitDies u).any s.dieAbsent

/-- The state code GRT_UNIT_u shows (T10.9). -/
def State.unitCode (s : State) (u : Nat) : Nat :=
  if s.unitHeld u then 4
  else match (s.unit u).state with
    | .running => 0 | .draining => 1 | .drained => 2 | .fenced => 3 | .held => 4

/-- GRT_UNIT_u. -/
def State.unitWord (s : State) (u : Nat) : Nat :=
  (s.unit u).drainUs.toNat + b2n (s.unit u).forced * 2 ^ 27 + s.unitCode u * 2 ^ 28

/-- The endpoint is isolated as dead (R356). -/
def State.isDead (s : State) (e : Endpoint) : Bool := s.grout.dead.contains (epKey e)

/-- The endpoint's unit is fenced, held or the isolated guest (14 R489), or draining at a router that FENCE_REQ has reached (R340, R359). -/
def State.unitOut (s : State) (e : Endpoint) : Bool :=
  match unitOf e with
  | none => false
  | some u => s.unitHeld u || (u == 16 && s.gst.isolated) ||
      (match (s.unit u).state with
       | .running => false
       | .draining => (s.unit u).reqRouters.contains (e.x + 36 * e.y)
       | _ => true)

/-! ### Routes (R335, R337, R340) -/

/-- The routers from `a` to `b`, both included, of a line. -/
def steps (a b : Nat) : List Nat :=
  if a ≤ b then (List.range (b - a + 1)).map (a + ·) else (List.range (a - b + 1)).map (a - ·)

/-- The dimension-ordered route: X first, then Y. -/
def route (a b : Endpoint) : List (Nat × Nat) :=
  (steps a.x b.x).map (fun x => (x, a.y)) ++ ((steps a.y b.y).drop 1).map fun y => (b.x, y)

/-- The mesh hops of a route. -/
def hops (a b : Endpoint) : Nat := (route a b).length - 1

/-- A router held under R17 or R18: its brick is. -/
def State.routerHeld (s : State) (r : Nat × Nat) : Bool :=
  match brickOfRouter r.1 r.2 with
  | none => false
  | some n => s.dieAbsent n

/-- R340: the route there or the route back passes a held router. -/
def State.routeBlocked (s : State) (a b : Endpoint) : Bool :=
  (route a b).any s.routerHeld || (route b a).any s.routerHeld

/-! ### The address map (T10.3) -/

/-- What an address reaches: the endpoint and the access-table target (14 T14.10); none: no target. -/
structure Dest where
  ep : Endpoint
  target : Option Nat
deriving DecidableEq, Repr

/-- An encryption region. -/
def State.region (s : State) (r : Nat) : MekRegion := SMap.look {} s.dram.regions r

/-- Bytes of a GiB. -/
def giB : Nat := 2 ^ 30

/-- The region's data covers the address. -/
def MekRegion.covers (m : MekRegion) (a : Nat) : Bool :=
  m.state != .off && m.baseGiB.toNat * giB ≤ a && a < (m.baseGiB.toNat + m.sizeGiB.toNat) * giB

/-- The region's carve-out covers the address. -/
def MekRegion.carves (m : MekRegion) (a : Nat) : Bool :=
  m.state != .off && m.metaBase.toNat ≤ a && a < m.metaBase.toNat + m.metaLen.toNat

/-- The region whose data holds an address. -/
def State.regionAt (s : State) (a : Nat) : Option Nat := (List.range 8).find? fun r => (s.region r).covers a

/-- The address lies in a metadata carve-out (13 R444). -/
def State.inCarve (s : State) (a : Nat) : Bool := (List.range 8).any fun r => (s.region r).carves a

/-- Blocks of the hub control space that a chapter defines: DEV to SVP. -/
def blockDefined (k : Nat) : Bool := k ≤ 0x13

/-- The bond group that a bond-window address leaves by, and whether the window refuses it (08 R283):
`.inl` the status answered at once. -/
def State.bondRoute (s : State) (a : Nat) : (BitVec 4) ⊕ Nat :=
  let w := s.win (bitsAt a 40 4)
  let d := w.device.toNat
  let r := SMap.look 0 s.bond.routes d
  if !w.en || w.base.toNat + a % 2 ^ 40 ≥ 2 ^ 48 then .inl 5
  else if d = s.bond.device.toNat || !s.bond.members.getLsbD d || r = 0 then .inl 2
  else if (s.grp (r - 1)).state != .up then .inl 2
  else .inr (r - 1)

/-- Where a bond-window address goes: the device and the address there, base_w + o (08 R283). -/
def State.bondTarget (s : State) (a : Nat) : BitVec 6 × Addr :=
  let w := s.win (bitsAt a 40 4)
  (w.device, BitVec.ofNat 48 (w.base.toNat + a % 2 ^ 40))

/-- The lane die endpoint of bond group `g` for an address (T10.3). -/
def bondEp (g a : Nat) : Endpoint :=
  { x := 4 + 8 * (g / 4 % 4) + 2 * (g % 4) + bitsAt a 8 1, y := if g < 16 then 0 else 15, ep := 2 }

/-- R339: the decode of an address; `.inl` the status answered at once. -/
def State.decode (s : State) (a : Nat) : (BitVec 4) ⊕ Dest :=
  if a < 2 ^ 42 then
    if a < s.dram.installed.toNat then
      .inr { ep := dramEp (dramPortOf a), target := some ((s.regionAt a).getD 8) }
    else .inl 5
  else if 0x100000000000 ≤ a && a < 0x100100000000 then
    let o := a - 0x100000000000
    let n := o / 2 ^ 29
    let slab := o % 2 ^ 29 / 16384
    if slab < 25600 then
      .inr { ep := { x := 4 + 8 * (n % 4) + slab % 160 / 20, y := 8 * (n / 4) + slab / 160 / 20, ep := 1 }
             target := some 9 }
    else .inl 5
  else if 0x200000000000 ≤ a && a < 0x280000000000 then
    .inr { ep := portEp (64 * bitsAt a 40 3 + bitsAt a 34 6), target := none }
  else if 0x300000000000 ≤ a && a < 0x30000C000000 then
    .inr { ep := engineEp (bitsAt a 20 8), target := some 10 }
  else if 0x380000000000 ≤ a && a < 0x390000000000 then
    if s.part.guestVariant then .inr { ep := { x := 0, y := 7 + bitsAt a 8 1, ep := 3 }, target := some 12 }
    else .inl 2
  else if 0x3C0000000000 ≤ a && a < 0x3E0000000000 then
    let c := bitsAt a 40 1
    .inr { ep := { x := 4 + bitsAt a 8 2, y := 15 * c, ep := 2 }, target := some (13 + c) }
  else if 0x3F0000000000 ≤ a && a < 0x3F0001000000 then
    let k := bitsAt a 16 8
    if blockDefined k then .inr { ep := hubEp, target := some (16 + k) } else .inl 5
  else if 0x400000000000 ≤ a && a < 0x500000000000 then
    match s.bondRoute a with
    | .inl st => .inl st
    | .inr g => .inr { ep := bondEp g a, target := some 15 }
  else .inl 5

/-! ### Access tables (14 R480 to R485) -/

/-- A target that Table 14.10 defines. -/
def targetDefined (t : Nat) : Bool := t ≤ 15 && t != 11 || (16 ≤ t && t < 272 && blockDefined (t - 16))

/-- Entry 0 as reset leaves it in Blank and Open (R483). -/
def openEntry : AclEntry :=
  { masterLo := 0, masterHi := 0xFFFF, rights := 0x87, base := 0, limit := 0xFFFFFFFFFFFF }

/-- Entry `i` of target `t`. -/
def State.aclEntry (s : State) (t i : Nat) : AclEntry :=
  match SMap.look none s.sec.acl (t * 256 + i) with
  | some e => e
  | none => if i = 0 && s.sec.aclOpen then openEntry else {}

/-- The entries of a target that may be valid: those written and entry 0. -/
def State.aclEntries (s : State) (t : Nat) : List AclEntry :=
  s.aclEntry t 0 :: (s.sec.acl.filter fun e => e.1 / 256 == t && e.1 % 256 != 0).map fun e => e.2.getD {}

/-- Entry valid. -/
def AclEntry.valid (e : AclEntry) : Bool := e.rights.getLsbD 7

/-- Valid entries of a target. -/
def State.aclValid (s : State) (t : Nat) : Nat := ((s.aclEntries t).filter (·.valid)).length

/-- R481: the entry grants operation `op` (0 R, 1 W, 2 X) on the bytes `a` to `b`. -/
def AclEntry.grants (e : AclEntry) (a b op : Nat) : Bool :=
  e.valid && e.base.toNat ≤ a && b ≤ e.limit.toNat && e.rights.getLsbD op

/-- The entry's masters. -/
def AclEntry.has (e : AclEntry) (master : Nat) : Bool := e.masterLo.toNat ≤ master && master ≤ e.masterHi.toNat

/-- R482: the steward and the configuration controller hold R and W here whatever the table says. -/
def stewardRight (t master op : Nat) : Bool := master < 2 && op < 2 && (t ≤ 10 || 16 ≤ t)

/-- The table's verdict (R481, R482). -/
def State.tableAllows (s : State) (t master a b op : Nat) : Bool :=
  stewardRight t master op || (s.aclEntries t).any fun e => e.has master && e.grants a b op

/-- A denial is counted, recorded and logged (R481). -/
def noteDenial (t master a op : Nat) (s : State) : State :=
  logEvent 0x2010 [t, master, a, op]
    { s with sec := { s.sec with
        denials := SMap.upd 0 s.sec.denials t (satAdd · 1)
        lastDeny := BitVec.ofNat 64 (a + t * 2 ^ 48 + (if op = 1 then 2 ^ 57 else 0) + 2 ^ 63)
        lastDenyMaster := BitVec.ofNat 16 master } }

/-- The least recently used of 64 verdicts makes room (R484). -/
def cacheUse (c : List Verdict) (v : Verdict) : List Verdict :=
  (v :: c.filter fun w => !(w.master == v.master && w.page == v.page && w.op == v.op)).take 64

/-- A request's check at its target's copy of the table (R481, R484, R485): a cached verdict of this
master, page and operation decides; otherwise the table does, and its verdict is cached. A carve-out
(13 R444) and, in Quarantine, every master outside 0 to 3 (R471) are denied before it. -/
def aclCheck (t : Nat) (ep : Endpoint) (master a b op : Nat) (s : State) : Bool × State :=
  if s.inCarve a && t ≤ 8 then (false, noteDenial t master a op s)
  else if s.secAxis == .quarantine && master > 3 then (false, noteDenial t master a op s)
  else
    let k := t * 4096 + epKey ep
    let c := SMap.look [] s.sec.caches k
    let page := a / 4096
    let m := BitVec.ofNat 16 master
    let o := BitVec.ofNat 2 op
    let v : Verdict := match c.find? fun v => v.master == m && v.page == page && v.op == o with
      | some v => v
      | none => { master := m, page, op := o, allow := s.tableAllows t master a b op }
    let s := { s with sec := { s.sec with caches := SMap.put [] s.sec.caches k (cacheUse c v) } }
    if v.allow then (true, s) else (false, noteDenial t master a op s)

/-- Every verdict cache is cleared and every stale window closed (R484, R485). -/
def clearCaches (s : State) : State := { s with sec := { s.sec with caches := [], stale := [] } }

/-- ACL_INVALIDATE of one target (R484, R485). -/
def clearTarget (t : Nat) (s : State) : State :=
  { s with sec := { s.sec with caches := s.sec.caches.filter fun e => e.1 / 4096 != t
                               stale := SMap.put false s.sec.stale t false } }

/-- ACL_TGT_t. -/
def State.aclWord (s : State) (t : Nat) : Nat :=
  if targetDefined t then
    (SMap.look 0 s.sec.denials t).toNat + s.aclValid t * 2 ^ 16 + b2n (SMap.look false s.sec.stale t) * 2 ^ 31
  else 0

end Sys2Proof.Machine
end

