-- ==== Sys2Proof/Machine/IntakeOps.lean ====
section
/-!
DEFINITION. The command ports (02): packets as bytes, submission, lost packets and their retry counts,
replies reaching their port, the engine mailbox (11 R393) and the serial ports (02 R43).
-/
namespace Sys2Proof.Machine
open Sys2Proof

/-! ### Packets as bytes (R44, R45) -/

/-- The packet a port delivers: bytes 10 to 15 of the header are the port's (R45). -/
def parsePacket (port : Fin 8) (source : BitVec 16) (bs : List Byte) : Packet :=
  { opcode := BitVec.ofNat 16 (fieldAt bs 0 2)
    cmd := { port, source, tag := BitVec.ofNat 16 (fieldAt bs 2 2), paramLength := BitVec.ofNat 32 (fieldAt bs 4 4)
             flags := BitVec.ofNat 16 (fieldAt bs 8 2), body := bs.drop 16 } }

end Sys2Proof.Machine

namespace Sys2Proof
open Sys2Proof.Machine

/-- flags.trailer. -/
def Cmd.trailer (c : Cmd) : Bool := c.flags.getLsbD 1

/-- flags.key_slot. -/
def Cmd.keySlot (c : Cmd) : Nat := bitsAt c.flags.toNat 2 2

/-- flags.notify. -/
def Cmd.notify (c : Cmd) : Bool := c.flags.getLsbD 4

/-- flags.lock_begin. -/
def Cmd.lockBegin (c : Cmd) : Bool := c.flags.getLsbD 5

/-- flags.lock_end. -/
def Cmd.lockEnd (c : Cmd) : Bool := c.flags.getLsbD 6

/-- The parameters. -/
def Cmd.params (c : Cmd) : List Byte := c.body.take c.paramLength.toNat

/-- The trailer's counter. -/
def Cmd.counter (c : Cmd) : Nat := fieldAt c.body c.paramLength.toNat 8

/-- The trailer's tag. -/
def Cmd.mac (c : Cmd) : List Byte := slice c.body (c.paramLength.toNat + 8) 8

/-- What the tag of a request is computed over (R47): the header with bytes 10 to 15 taken as 0, the
parameters and the counter. -/
def Packet.macInput (p : Packet) : List Byte :=
  leBytes 2 p.opcode.toNat ++ leBytes 2 p.cmd.tag.toNat ++ leBytes 4 p.cmd.paramLength.toNat ++
  leBytes 2 p.cmd.flags.toNat ++ List.replicate 6 0 ++ p.cmd.params ++ leBytes 8 p.cmd.counter

end Sys2Proof

namespace Sys2Proof.Machine
open Sys2Proof

/-! ### Ports -/

/-- Port `p`. -/
def State.cport (s : State) (p : Nat) : Port := SMap.look {} s.intake.ports p

/-- Writes port `p`. -/
def State.setCport (s : State) (p : Nat) (f : Port → Port) : State :=
  { s with intake.ports := SMap.upd {} s.intake.ports p f }

/-- Serial ports (R43). -/
def serialPort (p : Nat) : Bool := p == 2 || p == 3 || p == 4

/-- A port's consecutive loss (R66): the count doubles from 1 to 1,024, once in an intake cycle however many packets
lose in it. -/
def Port.lose (p : Port) (now : Nat) : Port :=
  if p.lastLoss = now + 1 then p
  else
    { p with losses := p.losses + 1, retry := if p.losses = 0 then 1 else min 1024 (2 * p.retry), lastLoss := now + 1 }

/-- A grant resets the count (R66). -/
def Port.granted (p : Port) : Port := { p with losses := 0, retry := 0, lastLoss := 0 }

/-- The rank of a port. -/
def rankOf (ranks : W32) (p : Nat) : Nat := bitsAt ranks.toNat (4 * p) 3

/-- The next of some sources after the last one granted, wrapping (R39, R64). -/
def nextAfter (last : Nat) (xs : List Nat) : Option Nat :=
  match (xs.filter (· > last)).min? with
  | some x => some x
  | none => xs.min?

/-! ### Replies at the ports (R42, R63, 11 R393) -/

/-- An enabled pending interrupt ends the wait (11 T11.5). -/
def Engine.wake (x : Engine) : Engine :=
  if x.state == .waiting && x.ie &&& x.ip != 0 then { x with state := .running } else x

/-- Sets interrupts pending. -/
def Engine.pend (x : Engine) (code : Nat) : Engine :=
  { x with ip := setBit x.ip (code - 16) true }.wake

/-- The reply bytes as a port's reader takes them: on the engine port they are cut to ENG_MB_RPL_MAX. -/
def mailboxWrite (e : Nat) (r : Reply) (s : State) : State :=
  s.setEng e fun x =>
    let bs := r.bytes.take x.mbRplMax.toNat
    let mem := (bs.zipIdx).foldl (fun m b =>
      let a := x.mbRplAddr.toNat + b.2
      if a < 0x60000 then SMap.put {} m a { data := b.1 } else m) x.mem
    { x with mem := mem, mbTruncated := decide (r.bytes.length > x.mbRplMax.toNat) }.pend 17

/-- A reply for a peer leaves on the group towards it, where that is UP (R63, 08 R286). -/
def bondReply (device : Nat) (r : Reply) (s : State) : State :=
  let g := SMap.look 0 s.bond.routes device
  let s := s.setSpace 6 (BitVec.ofNat 16 device) fun sp => if r.notification then sp else { sp with reqBusy := false }
  if g ≠ 0 && (s.grp (g - 1)).state == .up then sendTxnFrame (g - 1) 2 r.bytes s else s

/-- A reply or notification reaches its port (R42, R63): a free space takes it at once. Nothing commanded reads the
replies of port 7: the guest takes each at once, a notification with the guest gate interrupt (assumption log 49). -/
def deliver (port : Fin 8) (source : BitVec 16) (r : Reply) (s : State) : State :=
  if port == 6 then bondReply source.toNat r s
  else if port == 7 then
    let s := if r.notification then { s with gst.irqs := s.gst.irqs + 1 } else s
    s.setSpace port source fun sp =>
      { sp with current := some r, waiting := [], reqBusy := if r.notification then sp.reqBusy else false }
  else
    let free := (s.space port source).current.isNone
    let s := postReply port source r s
    if free && port == 5 then mailboxWrite source.toNat r s else s

/-- The reply of a packet. -/
def replyTo (p : Packet) (auth : Option (W64 × List Byte)) (status : BitVec 16) (data : List Byte) (s : State) : State :=
  deliver p.cmd.port p.cmd.source (mkReply s p.cmd.tag status p.opcode data false auth) s

/-- A locked sequence begins (R68). -/
def beginLock (p : Packet) (s : State) : State :=
  if p.cmd.lockBegin then
    { s with intake.lock := some { port := p.cmd.port, source := p.cmd.source, opcode := p.opcode, start := s.time } }
  else s

/-- The reply of a command that held the intake; its entry stays only where it is ACCEPTED (R60, R61), and a locked
sequence begins only with OK or ACCEPTED (R68). -/
def finishHeld (status : BitVec 16) (data : List Byte) (s : State) : State :=
  match s.intake.busy with
  | none => s
  | some h =>
    let c := h.packet.cmd
    let s := { s with intake.busy := none }
    let s := if status = Status.accepted then s else releaseEntry c.port c.source c.tag s
    let s := if status = Status.ok || status = Status.accepted then beginLock h.packet s else s
    if h.mute then s else replyTo h.packet h.auth status data s

/-- The command of a port, source and tag holds the intake. -/
def State.holds (s : State) (port : Fin 8) (source tag : BitVec 16) : Bool :=
  match s.intake.busy with
  | some h => h.packet.cmd.port == port && h.packet.cmd.source == source && h.packet.cmd.tag == tag
  | none => false

/-- The held command has passed its 2 ms. -/
def State.heldLate (s : State) : Bool :=
  match s.intake.busy with
  | some h => match h.deadline with | some t => decide (t < s.time) | none => false
  | none => false

/-- A command reaches its end: in its reply while it holds the intake, else in its completion entry (R60, R62). One that
holds it past its 2 ms was accepted when they ended. -/
def reach (port : Fin 8) (source tag status : BitVec 16) (data : List Byte) (s : State) : State :=
  if s.holds port source tag then
    if s.heldLate then finishEntry port source tag status data (finishHeld Status.accepted [] s)
    else finishHeld status data s
  else finishEntry port source tag status data s

/-- The reader has taken the reply: the space frees, and one that waits takes it (R42). -/
def takeReply (port : Fin 8) (source : BitVec 16) (s : State) : State :=
  match (s.space port source).current with
  | none => s
  | some _ =>
    match (s.space port source).waiting with
    | [] => s.setSpace port source fun sp => { sp with current := none }
    | r :: rest =>
      let s := signalMsi port (s.setSpace port source fun sp => { sp with current := some r, waiting := rest })
      if port == 5 then mailboxWrite source.toNat r s else s

/-- Answers a request that never reached the checks: BACKOFF with the retry count, before whose end the source must not
resubmit (R66). -/
def replyBackoff (p : Packet) (retry : Nat) (s : State) : State :=
  deliver p.cmd.port p.cmd.source
    (mkReply s p.cmd.tag Status.backoff p.opcode (leBytes 4 retry) false none)
    (s.setSpace p.cmd.port p.cmd.source fun sp => { sp with retryUntil := s.time + retry })

/-- A losing packet: the port's loss is counted and BACKOFF answered. -/
def loseAlone (p : Packet) (s : State) : State :=
  let n := p.cmd.port.val
  let s := s.setCport n (·.lose s.time)
  replyBackoff p (s.cport n).retry s

/-- The SPI service master reads the slave's reply while it writes its next packet (assumption log 49). -/
def spiTurn (port : Fin 8) (s : State) : State := if port = 4 then takeReply 4 0 s else s

/-- The packet joins its port's requests. -/
def request (p : Packet) (s : State) : State :=
  s.setCport p.cmd.port.val fun x => { x with requests := x.requests ++ [p] }

/-! ### Submission (R42, R43, R66) -/

/-- A port requests the intake with a packet. A packet submitted before its source's retry count has elapsed
loses without arbitration (R66); port 7 requests only where the guest gate is enabled (R38, 01 R28); before the intake
opens no port requests (R37). A packet of a source whose earlier one is unanswered is dropped (assumption log 77). -/
def submitPacket (p : Packet) (s : State) : State :=
  let sp := s.space p.cmd.port p.cmd.source
  if !s.intake.opened || (p.cmd.port = 7 && !(s.part.guestVariant && s.dev.role)) || sp.reqBusy then s
  else
    let s := s.setSpace p.cmd.port p.cmd.source fun sp => { sp with reqBusy := true }
    if s.time < sp.retryUntil then loseAlone p s else request p s

/-- A whole packet as bytes: one below 16 bytes is discarded and sets truncated (R43). -/
def submitBytes (port : Fin 8) (source : BitVec 16) (bs : List Byte) (s : State) : State :=
  if bs.length < 16 then
    if s.intake.opened then s.setCport port.val fun x => { x with truncated := true } else s
  else submitPacket (parsePacket port source bs) s

/-- The bytes that complete the serial packet begun by `bs`: 16 + param_length, and 16 more with
flags.trailer (R44). -/
def packetSize (bs : List Byte) : Nat :=
  16 + fieldAt bs 4 4 + (if bitAt (fieldAt bs 8 2) 1 then 16 else 0)

/-- Bytes arrive on a serial port; the packet is submitted when it is complete (R43, 16 R545). -/
def serialBytes (port : Fin 8) (bs : List Byte) (s : State) : State :=
  let s := spiTurn port s
  let all := (s.cport port.val).partialBytes ++ bs
  if 16 ≤ all.length && packetSize all ≤ all.length then
    submitBytes port 0 (all.take (packetSize all)) (s.setCport port.val fun x => { x with partialBytes := [] })
  else s.setCport port.val fun x => { x with partialBytes := all }

/-- A partial packet is discarded and truncated is set (R43, 16 R538). -/
def dropPartial (port : Nat) (s : State) : State :=
  if (s.cport port).partialBytes.isEmpty then s
  else s.setCport port fun x => { x with partialBytes := [], truncated := true }

/-! ### Registers of the CMD block (T2.9 to T2.13) -/

/-- CMD_PORT_STATUS_p. -/
def Port.word (p : Port) : Nat :=
  p.retry + min 15 p.losses * 2 ^ 12 + p.failRun * 2 ^ 16 + b2n p.truncated * 2 ^ 30 + b2n p.lockedOut * 2 ^ 31

/-- CMD_LOCK_STATUS. -/
def State.lockWord (s : State) : Nat :=
  match s.intake.lock with
  | none => 0
  | some l => min 10000 ((s.time - l.start) / ticksPerMs) + l.source.toNat % 256 * 2 ^ 16 + l.port.val * 2 ^ 24 + 2 ^ 31

/-- CMD_INTAKE_STATUS. -/
def State.intakeWord (s : State) : Nat :=
  (match s.intake.busy with | none => 0 | some h => h.packet.opcode.toNat + 2 ^ 16) +
  s.intake.table.length * 2 ^ 17

/-- Reads a register of the CMD block. -/
def State.readCmd (s : State) (off : Nat) : Nat :=
  if off = 0 then s.intake.rankShadow.toNat
  else if off = 4 then s.intake.rankActive.toNat
  else if off = 0x10 then s.lockWord
  else if off = 0x14 then s.intakeWord
  else if 0x20 ≤ off && off < 0x40 then (s.cport ((off - 0x20) / 4)).word
  else 0

/-- CMD_RANK_COMMIT[0] (R65): captures the shadow as it stands; a second commit replaces it. -/
def commitRanks (s : State) : State := { s with intake.rankPending := some s.intake.rankShadow }

/-- CMD_MB_STATUS of controller `c` (T2.3). -/
def State.mbStatus (s : State) (c : Fin 2) : Nat :=
  let sp := s.space (Fin.ofNat 8 c.val) 0
  b2n sp.reqBusy + 2 * b2n (match sp.current with | some r => !r.notification | none => false) +
  4 * b2n (match sp.current with | some r => r.notification | none => false) +
  8 * b2n (s.intake.opened && !sp.reqBusy)

end Sys2Proof.Machine
end

