-- ==== Sys2Proof/Machine/Operands.lean ====
section
/-!
DEFINITION. The engines' operand forms (12): g registers and pairs, accumulators, pointers, modifiers,
the special registers of T12.2, lanes and complex values (R405, R406), and the address modes with their
post-modify (R409, T12.5).
-/
namespace Sys2Proof.Machine
open Sys2Proof

/-! ### Registers (T12.1) -/

/-- g register `i`. -/
def Engine.gr (x : Engine) (i : Nat) : PReg 32 := SMap.look {} x.g i

/-- Writes g register `i`. -/
def Engine.setG (x : Engine) (i : Nat) (v : W32) (p : Bool) : Engine :=
  { x with g := SMap.put {} x.g i { v, p } }

/-- The pair that register `i` (even) begins: the low word in it (d registers). -/
def Engine.pairVal (x : Engine) (i : Nat) : W64 × Bool :=
  ((x.gr (i + 1)).v ++ (x.gr i).v, (x.gr i).p || (x.gr (i + 1)).p)

/-- Writes a pair. -/
def Engine.setPair (x : Engine) (i : Nat) (v : W64) (p : Bool) : Engine :=
  (x.setG i (v.truncate 32) p).setG (i + 1) ((v >>> 32).truncate 32) p

/-- Accumulator `i`. -/
def Engine.acr (x : Engine) (i : Nat) : PReg 72 := SMap.look {} x.ac i

/-- Writes accumulator `i`. -/
def Engine.setAc (x : Engine) (i : Nat) (v : BitVec 72) (p : Bool) : Engine :=
  { x with ac := SMap.put {} x.ac i { v, p } }

/-- Pointer `i`. -/
def Engine.pr (x : Engine) (i : Nat) : PReg 32 := SMap.look {} x.p i

/-- Writes pointer `i`. -/
def Engine.setP (x : Engine) (i : Nat) (v : W32) (p : Bool) : Engine :=
  { x with p := SMap.put {} x.p i { v, p } }

/-- Modifier `i`. -/
def Engine.mr (x : Engine) (i : Nat) : PReg 32 := SMap.look {} x.m i

/-- Writes modifier `i`. -/
def Engine.setM (x : Engine) (i : Nat) (v : W32) (p : Bool) : Engine :=
  { x with m := SMap.put {} x.m i { v, p } }

/-! ### Special registers (T12.2 to T12.4) -/

/-- The writable bits of sr; rnd 3 is decoded as 0 where it is used (T12.3). -/
def srMask : W32 := 0xF000FF1F

/-- An index that Table 12.2 lists. -/
def specialListed (i : Nat) : Bool := i != 2 && i != 3 && i < 32

/-- The value of special register `i` and its poison: sr is poisoned where one of its flags is. -/
def Engine.special (x : Engine) (i : Nat) : W32 × Bool :=
  if i = 0 then (x.sr, x.fp != 0)
  else if i = 1 then (x.lpact.zeroExtend 32, false)
  else if i < 8 then (SMap.look 0 x.lc (i - 4), false)
  else if i < 12 then (SMap.look 0 x.ls (i - 8), false)
  else if i < 16 then (SMap.look 0 x.le (i - 12), false)
  else if i < 24 then (SMap.look 0 x.b (i - 16), false)
  else (SMap.look 0 x.l (i - 24), false)

/-- A write of MVS: a loop register empties the repeat cache (R420). -/
def Engine.setSpecial (x : Engine) (i : Nat) (v : W32) : Engine :=
  if i = 0 then { x with sr := v &&& srMask, fp := 0 }
  else if i = 1 then { x with lpact := v.truncate 4, cache := [] }
  else if i < 8 then { x with lc := SMap.put 0 x.lc (i - 4) v, cache := [] }
  else if i < 12 then { x with ls := SMap.put 0 x.ls (i - 8) v, cache := [] }
  else if i < 16 then { x with le := SMap.put 0 x.le (i - 12) v, cache := [] }
  else if i < 24 then { x with b := SMap.put 0 x.b (i - 16) v }
  else { x with l := SMap.put 0 x.l (i - 24) v }

/-! ### Lanes and complex values (R406) -/

/-- Lane `k` of a value of 16-bit lanes, signed. -/
def laneInt (v k : Nat) : Int := (BitVec.ofNat 16 (v >>> (16 * k))).toInt

/-- Two 16-bit lanes packed. -/
def packLanes (lo hi : Int) : W32 := BitVec.ofInt 16 hi ++ BitVec.ofInt 16 lo

/-! ### Address modes (R409, T12.5) -/

/-- The low `k` bits of `v` in reversed order. -/
def revBits (k v : Nat) : Nat := bitsNat ((List.range k).map fun i => v.testBit (k - 1 - i))

/-- The post-modify of pointer `i` by `d` (R409). -/
def Engine.postModify (x : Engine) (i : Nat) (d : W32) : W32 :=
  let p := (x.pr i).v
  let b := SMap.look 0 x.b i
  let l := (SMap.look 0 x.l i).toNat
  if l = 0 then p + d
  else if !x.sr.getLsbD (8 + i) then
    BitVec.ofInt 32 (b.toNat + ((p.toNat : Int) - b.toNat + d.toInt) % l)
  else
    let k := Nat.log2 l
    let o := (p - b).toNat % 2 ^ k
    b + BitVec.ofNat 32 (revBits k ((revBits k o + revBits k (d.toNat % 2 ^ k)) % 2 ^ k))

/-- One data access of an instruction: the register (or pair) it loads or stores, its address and size
in bytes, and the pointer's value after it. -/
structure Access where
  store : Bool
  reg : Nat
  sx : Bool
  addr : W32
  size : Nat
  ptr : Option (Nat × W32)
deriving DecidableEq, Repr

/-- The access of LD and ST; an error is the exception's code: 1 an undefined encoding, 7 a poisoned
pointer or modifier. -/
def MemForm.access (x : Engine) (isStore : Bool) (rd : Nat) (m : MemForm) : Except Nat Access :=
  let size := 2 ^ m.size.val
  let i := m.ptr.val
  if m.am = 3 || (size = 8 && rd % 2 = 1) || (m.am = 2 && m.disp.toNat ≥ 8) then .error 1
  else if (x.pr i).p then .error 7
  else
    let disp := m.disp.signExtend 32
    let p := (x.pr i).v
    let acc (addr : W32) (ptr : Option (Nat × W32)) : Access := { store := isStore, reg := rd, sx := m.sx, addr, size, ptr }
    if m.am = 0 then .ok (acc (p + disp) none)
    else if m.am = 1 then .ok (acc p (some (i, x.postModify i disp)))
    else
      let d := x.mr (m.disp.toNat % 8)
      if d.p then .error 7 else .ok (acc p (some (i, x.postModify i d.v)))

/-- The access of a slot of a 64-bit instruction (T12.10); `size` is the prefix's code. -/
def Slot.access (x : Engine) (s : Slot) (size : Nat) (sx : Bool) : Except Nat (List Access) :=
  if !s.en then .ok []
  else if size = 0 || (size = 3 && s.reg.val % 2 = 1) then .error 1
  else
    let n := 2 ^ size
    let i := s.ptr.val
    let d := x.mr i
    if (x.pr i).p || (s.useMod && d.p) then .error 7
    else
      let step := if s.useMod then d.v else BitVec.ofNat 32 n
      .ok [{ store := s.store, reg := s.reg.val, sx := sx && n = 2, addr := (x.pr i).v, size := n
             ptr := some (i, x.postModify i step) }]

/-- The value an access stores, and its poison. -/
def Access.value (a : Access) (x : Engine) : W64 × Bool :=
  if a.size = 8 then x.pairVal a.reg else ((x.gr a.reg).v.zeroExtend 64, (x.gr a.reg).p)

/-- Writes what a load of this access returned: little-endian bytes, extended (T12.7). -/
def Access.load (a : Access) (bytes : List Byte) (poison : Bool) (x : Engine) : Engine :=
  let v := leNat bytes
  if a.size = 8 then x.setPair a.reg (BitVec.ofNat 64 v) poison
  else
    let w := if a.sx then (BitVec.ofNat (8 * a.size) v).signExtend 32 else BitVec.ofNat 32 v
    x.setG a.reg w poison

/-- The pointer update (R410). -/
def Access.post (a : Access) (x : Engine) : Engine :=
  match a.ptr with
  | none => x
  | some (i, v) => x.setP i v false

end Sys2Proof.Machine
end

