-- ==== Sys2Proof/Machine/Flags.lean ====
section
/-!
DEFINITION. The engines' results and flags (12 R411 to R416): sr's modes, saturation and rounding, and
what each class does to z, n, c, v and sat (R415). A flag carries the poison of the sources that set it
(11 R385).
-/
namespace Sys2Proof.Machine
open Sys2Proof

/-- sr.frac. -/
def Engine.frac (x : Engine) : Bool := x.sr.getLsbD 31

/-- sr.sat_en. -/
def Engine.satEn (x : Engine) : Bool := x.sr.getLsbD 30

/-- sr.rnd, 3 decoded as 0. -/
def Engine.rnd (x : Engine) : Nat := let r := bitsAt x.sr.toNat 28 2; if r = 3 then 0 else r

/-- Sets flag `i` of sr with its poison. -/
def Engine.flag (x : Engine) (i : Nat) (b p : Bool) : Engine :=
  { x with sr := setBit x.sr i b, fp := setBit x.fp i p }

/-- An operation saturated: sat and v (R415). -/
def Engine.noteSat (x : Engine) (p : Bool) : Engine :=
  (x.flag 4 true (p || x.fp.getLsbD 4)).flag 3 true p

/-- Writes an ALU result to a g register; z and n follow it (R415). -/
def Engine.aluOut (x : Engine) (rd : Nat) (v : W32) (p : Bool) : Engine :=
  ((x.setG rd v p).flag 0 (v == 0) p).flag 1 v.msb p

/-- Logical operations and shifts: as `aluOut`, and v is cleared (R415). -/
def Engine.logicOut (x : Engine) (rd : Nat) (v : W32) (p : Bool) : Engine := (x.aluOut rd v p).flag 3 false p

/-- The value fits `w` bits, signed. -/
def fits (w : Nat) (i : Int) : Bool := -(2 ^ (w - 1) : Int) ≤ i && i < (2 ^ (w - 1) : Int)

/-- The nearest value of `w` signed bits. -/
def clampInt (w : Nat) (i : Int) : Int := max (-(2 ^ (w - 1) : Int)) (min (2 ^ (w - 1) - 1 : Int) i)

/-- The carry of an addition; for a subtraction, no borrow (R425: LTU is "not c"). -/
def carryOf (sub : Bool) (a b : W32) : Bool :=
  if sub then decide (b.toNat ≤ a.toNat) else decide (2 ^ 32 ≤ a.toNat + b.toNat)

/-- The exact sum or difference, signed. -/
def exactSum (sub : Bool) (a b : W32) : Int := if sub then a.toInt - b.toInt else a.toInt + b.toInt

/-- ADD, SUB and the immediate form: the result saturates under sat_en (T12.3), c and v follow (R415). -/
def Engine.addOp (x : Engine) (rd : Nat) (sub : Bool) (a b : W32) (p : Bool) : Engine :=
  let r := exactSum sub a b
  let ovf := !fits 32 r
  let s := ovf && x.satEn
  let v : W32 := BitVec.ofInt 32 (if s then clampInt 32 r else r)
  let x := ((x.aluOut rd v p).flag 2 (carryOf sub a b) p).flag 3 ovf p
  if s then x.noteSat p else x

/-- CMP: the flags of the difference, no register written (T12.9). -/
def Engine.cmpOp (x : Engine) (a b : W32) (p : Bool) : Engine :=
  let r := exactSum true a b
  let v : W32 := a - b
  (((x.flag 0 (v == 0) p).flag 1 v.msb p).flag 2 (carryOf true a b) p).flag 3 (!fits 32 r) p

/-- A result that saturates always (ADDS, SUBS) or under `sat`: z and n follow, sat and v are set where
it does. -/
def Engine.satOut (x : Engine) (rd : Nat) (r : Int) (sat : Bool) (p : Bool) : Engine :=
  let s := sat && !fits 32 r
  let x := x.aluOut rd (BitVec.ofInt 32 (if s then clampInt 32 r else r)) p
  if s then x.noteSat p else x

/-- An arithmetic shift right by `n` with the rounding of sr.rnd: 0 toward minus infinity, 1 half up,
2 half to even (T12.3). -/
def roundShift (rnd : Nat) (v : Int) (n : Nat) : Int :=
  if n = 0 then v
  else
    let q := v / (2 ^ n : Int)
    let rem := v % (2 ^ n : Int)
    let half : Int := 2 ^ (n - 1)
    if rnd = 1 then (if rem ≥ half then q + 1 else q)
    else if rnd = 2 then (if rem > half || (rem = half && q % 2 = 1) then q + 1 else q)
    else q

/-- Per-lane results of a .2H operation (T12.9): they saturate or wrap by sat_en; z, n and c stay. -/
def Engine.lanesOut (x : Engine) (rd : Nat) (lo hi : Int) (p : Bool) : Engine :=
  let s := x.satEn && (!fits 16 lo || !fits 16 hi)
  let f (i : Int) : Int := if x.satEn then clampInt 16 i else i
  let x := x.setG rd (packLanes (f lo) (f hi)) p
  if s then x.noteSat p else x

/-- Half of an exact lane sum or difference, rounded under `rnd` (HADD.2H, HSUB.2H: never an overflow).
The one value that would leave the lane is free (assumption log 31). -/
def halveLane (rnd : Nat) (i : Int) : Int :=
  let h := roundShift rnd i 1
  if fits 16 h then h else (Config.halfOverflow rnd).toInt

/-- A sum in 72 bits (R411): v where it leaves the range, then saturated or wrapped by sat_en. -/
def Engine.accOut (x : Engine) (acd : Nat) (r : Int) (p : Bool) : Engine :=
  let ovf := !fits 72 r
  let v : BitVec 72 := BitVec.ofInt 72 (if ovf && x.satEn then clampInt 72 r else r)
  let x := x.setAc acd v p
  if ovf then (if x.satEn then x.noteSat p else x.flag 3 true p) else x

/-- A signed product of `w`-bit operands under sr.frac (R413): the product and whether it is the single
one that cannot be represented. -/
def fracProduct (frac : Bool) (w : Nat) (a b : Int) : Int × Bool :=
  if !frac then (a * b, false)
  else if a = -(2 ^ (w - 1) : Int) && b = -(2 ^ (w - 1) : Int) then (2 ^ (2 * w - 1) - 1, true)
  else (2 * (a * b), false)

/-- Sets sat and v where a product could not be represented (R413, R415). -/
def Engine.noteProducts (x : Engine) (bad : Bool) (p : Bool) : Engine := if bad then x.noteSat p else x

/-- Redundant sign bits of a value of `w` bits (R416). -/
def signBits (w : Nat) (v : Nat) : Nat :=
  let s := v.testBit (w - 1)
  (((List.range (w - 1)).map fun i => v.testBit (w - 2 - i)).takeWhile (· == s)).length

/-- A shift left by `n`, right arithmetically where `n` is negative; bits above `w` are lost (R416). -/
def normShift (w : Nat) (v : Int) (n : Int) : BitVec w :=
  if n ≥ 0 then BitVec.ofInt w (if n ≥ w then 0 else v * 2 ^ n.toNat)
  else BitVec.ofInt w (v / 2 ^ (min (-n).toNat w))

/-- EXT's value (R414): (acs >> sh) rounded, fitted into `w` bits. Answers the value and whether it
saturated. -/
def Engine.extract (x : Engine) (acs sh w : Nat) : Int × Bool :=
  let v := roundShift x.rnd (x.acr acs).v.toInt sh
  if fits w v then (v, false)
  else if x.satEn then (clampInt w v, true)
  else ((BitVec.ofInt w v).toInt, false)

/-- The branch conditions (R425): the flags each reads, and whether it holds. 13 and 14 are undefined. -/
def branchCond (sr : W32) (cond : Nat) : Option (BitVec 5 × Bool) :=
  let z := sr.getLsbD 0
  let n := sr.getLsbD 1
  let c := sr.getLsbD 2
  let v := sr.getLsbD 3
  match cond with
  | 0 => some (1, z) | 1 => some (1, !z)
  | 2 => some (10, n != v) | 3 => some (10, n == v)
  | 4 => some (4, !c) | 5 => some (4, c)
  | 6 => some (2, n) | 7 => some (2, !n)
  | 8 => some (8, v) | 9 => some (8, !v)
  | 10 => some (11, !z && n == v) | 11 => some (11, !(!z && n == v))
  | 12 => some (16, sr.getLsbD 4)
  | 15 => some (0, true)
  | _ => none

end Sys2Proof.Machine
end

