-- ==== Sys2Proof/Machine/EngOps.lean ====
section
/-!
DEFINITION. The engines' shared operations (11, 12): memories with check bits (R374), the register block
(T11.6), the store buffer and the load check (R381, R382), taking an exception (R386, R388), the issue and
completion of an instruction with its loops and repeat cache (R417 to R421), the instructions that access
memory (R409, R427), DMA (R391), stops and halts (R402, 16 R549).
-/
namespace Sys2Proof.Machine
open Sys2Proof

/-! ### Memories (R373 to R375) -/

/-- Reads one byte of an engine memory: data, poison, and the state with the read counted (R374). -/
def engReadByte (e a : Nat) (s : State) : (Byte × Bool) × State :=
  let m := SMap.look {} (s.eng e).mem a
  let d := m.decode
  let s :=
    if d.2.2 = 1 then
      logEvent 0x8003 [e, a / 0x20000, a % 0x20000] (s.setEng e fun x => { x with memCe := satAdd x.memCe 1 })
    else if d.2.2 = 2 then
      logEvent 0x8004 [e, a / 0x20000, a % 0x20000] (s.setEng e fun x => { x with memUe := satAdd x.memUe 1 })
    else s
  ((d.1, d.2.1), s)

/-- Reads `n` bytes. -/
def engRead (e : Nat) : Nat → Nat → State → List (Byte × Bool) × State
  | _, 0, s => ([], s)
  | a, n + 1, s =>
    let (b, s) := engReadByte e a s
    let (rest, s) := engRead e (a + 1) n s
    (b :: rest, s)

/-- Stores bytes with their poison from address `a` on. -/
def engWrite (e a : Nat) (bs : List (Byte × Bool)) (s : State) : State :=
  s.setEng e fun x =>
    { x with mem := (bs.zipIdx).foldl (fun m b => SMap.put {} m (a + b.2) (MByte.store b.1.1 b.1.2)) x.mem }

/-! ### DMA (R391, R392) -/

/-- Bytes of the DMA's next packet: it does not cross a 256-byte grout block. -/
def Engine.dmaPacket (x : Engine) : Nat :=
  min x.dma.remaining.toNat (256 - (x.dmaGlobal.toNat + x.dma.moved) % 256)

/-- The packets a transfer of `n` bytes from grout address `a` still needs. -/
def dmaPackets (a n : Nat) : Nat := if n = 0 then 0 else (a % 256 + n + 255) / 256

/-- The setting is valid (R391): a length from 4 to 131,072, alignment, and a range within one memory. -/
def Engine.dmaValid (x : Engine) : Bool :=
  let n := x.dmaLen.toNat
  let a := x.dmaLocal.toNat
  4 ≤ n && n ≤ 131072 && n % 4 = 0 && a % 4 = 0 && x.dmaGlobal.toNat % 4 = 0 &&
  a < 0x60000 && a / 0x20000 = (a + n - 1) / 0x20000

/-- The channel ends: done, and the DMA interrupt where irq_en asks for it. -/
def Engine.dmaEnd (x : Engine) (err : Bool) (status : BitVec 4) : Engine :=
  let x := { x with dma := { x.dma with busy := false, aborting := none, done := true
                                        error := x.dma.error || err
                                        status := if err then status else x.dma.status } }
  if x.dmaIrq then x.pend 18 else x

/-- Writing go (R391): an invalid setting sets error with status 0xF and moves nothing. -/
def Engine.dmaStart (x : Engine) : Engine :=
  if x.dma.busy then x
  else if x.dmaValid then { x with dma := { x.dma with busy := true, aborting := none, remaining := x.dmaLen, moved := 0 } }
  else x.dmaEnd true 15

/-- Writing abort: the channel stops after the packets in flight, of which up to 8 are. -/
def Engine.dmaStop (x : Engine) : Engine :=
  if !x.dma.busy || x.dma.aborting.isSome then x
  else
    let n := min 8 (dmaPackets (x.dmaGlobal.toNat + x.dma.moved) x.dma.remaining.toNat)
    { x with dma := { x.dma with aborting := some n } }

/-! ### The register block (T11.6 to T11.9) -/

/-- Codes of T11.5. -/
def EngState.code : EngState → Nat
  | .stopped => 0 | .running => 1 | .waiting => 2 | .halted => 3 | .faulted => 4 | .wedged => 5

/-- ENG_STATE. -/
def Engine.stateWord (x : Engine) : Nat :=
  x.faultCode.toNat * 2 ^ 8 + b2n x.dma.busy * 2 ^ 16 + x.sb.length * 2 ^ 17 + b2n x.storeErrOverrun * 2 ^ 21 +
  b2n x.storeErr * 2 ^ 22 + b2n x.excActive * 2 ^ 23 + (x.clkDiv.toNat - 1) * 2 ^ 24 + x.state.code * 2 ^ 28

/-- ENG_PC: valid in STOPPED, HALTED, FAULTED and WEDGED (R397). -/
def Engine.pcWord (x : Engine) : Nat :=
  if x.state == .running || x.state == .waiting then 0 else x.pc.toNat

/-- ENG_DMA_STATUS. -/
def Dma.word (d : Dma) : Nat :=
  d.remaining.toNat + d.status.toNat * 2 ^ 24 + b2n d.poisoned * 2 ^ 28 + b2n d.error * 2 ^ 29 +
  b2n d.done * 2 ^ 30 + b2n d.busy * 2 ^ 31

/-- ENG_MB_STATUS of engine `e`. -/
def State.mbWord (s : State) (e : Nat) : Nat :=
  let sp := s.space 5 (BitVec.ofNat 16 e)
  b2n sp.reqBusy + 2 * b2n (match sp.current with | some r => !r.notification | none => false) +
  4 * b2n (match sp.current with | some r => r.notification | none => false) +
  8 * b2n (s.intake.opened && !sp.reqBusy) + 16 * b2n (s.eng e).mbTruncated

/-! ### The timer (R389, R390) -/

/-- ENG_TIMER counts: it is enabled, the engine's clock runs and the engine is not HALTED (R389, 16 R549). -/
def Engine.counting (x : Engine) : Bool := x.timerCtl.getLsbD 31 && !x.holdStopped && x.state != .halted

/-- Cycles of 2,000 MHz per count: prescale + 1 cycles of the engine's clock (R372, R390). -/
def Engine.countCycles (x : Engine) : Nat := (x.timerCtl.toNat % 2 ^ 16 + 1) * max 1 x.clkDiv.toNat

/-- Counts until ENG_TIMER comes to equal ENG_TIMER_CMP. -/
def Engine.toMatch (x : Engine) : Nat :=
  if x.timer.toNat < x.timerCmp.toNat then x.timerCmp.toNat - x.timer.toNat
  else 2 ^ 32 + x.timerCmp.toNat - x.timer.toNat

/-- The count after `n` more counts: a match clears it if reload is 1; otherwise it counts on and wraps. -/
def Engine.timerAfter (x : Engine) (n : Nat) : Nat :=
  if x.timerCtl.getLsbD 30 && x.toMatch ≤ n then
    (n - x.toMatch) % (if x.timerCmp = 0 then 2 ^ 32 else x.timerCmp.toNat)
  else (x.timer.toNat + n) % 2 ^ 32

/-- The engine with its timer brought to the device time `now`, in ticks of 20 cycles of 2,000 MHz. -/
def Engine.timerTo (now : Nat) (x : Engine) : Engine :=
  if x.counting then
    let c := x.prescale + 20 * (now - x.timerAt)
    { x with timer := BitVec.ofNat 32 (x.timerAfter (c / x.countCycles)), prescale := c % x.countCycles, timerAt := now }
  else x

/-- A change that stops, starts or sets the timer: it has counted up to `now`, and counts on from there. -/
def Engine.clocked (now : Nat) (f : Engine → Engine) (x : Engine) : Engine :=
  let y := f (x.timerTo now)
  if y.counting then { y with timerAt := now } else y

/-- The device time at which ENG_TIMER comes to equal ENG_TIMER_CMP. -/
def Engine.matchTime (x : Engine) : Nat := x.timerAt + (x.toMatch * x.countCycles - x.prescale + 19) / 20

/-- Reads a register of engine `e`'s block. -/
def State.readEngReg (s : State) (e off : Nat) : Nat :=
  let x := s.eng e
  if off = 0x00 then b2n x.faultVec + 2 * b2n x.gie
  else if off = 0x04 then x.stateWord
  else if off = 0x08 then x.pcWord
  else if off = 0x0C then x.epc.toNat
  else if off = 0x10 then x.ecause.toNat
  else if off = 0x14 then x.vbase.toNat
  else if off = 0x18 then x.ie.toNat
  else if off = 0x1C then x.ip.toNat
  else if off = 0x24 then x.faultAddr.toNat % 2 ^ 32
  else if off = 0x28 then x.faultAddr.toNat / 2 ^ 32
  else if 0x40 ≤ off && off < 0x60 then (SMap.look 0 x.seg ((off - 0x40) / 4)).toNat
  else if off = 0x80 then (x.timerTo s.time).timer.toNat
  else if off = 0x84 then x.timerCmp.toNat
  else if off = 0x88 then x.timerCtl.toNat
  else if off = 0xC0 then x.dmaLocal.toNat
  else if off = 0xC4 then x.dmaGlobal.toNat % 2 ^ 32
  else if off = 0xC8 then x.dmaGlobal.toNat / 2 ^ 32
  else if off = 0xCC then x.dmaLen.toNat
  else if off = 0xD0 then b2n x.dma.aborting.isSome + b2n x.dmaIrq * 2 ^ 29 + b2n x.dmaDir * 2 ^ 30 + b2n x.dma.busy * 2 ^ 31
  else if off = 0xD4 then x.dma.word
  else if off = 0x100 then x.mbReqAddr.toNat
  else if off = 0x104 then x.mbReqLen.toNat
  else if off = 0x108 then x.mbRplAddr.toNat
  else if off = 0x10C then x.mbRplMax.toNat
  else if off = 0x114 then s.mbWord e
  else if 0x200 ≤ off && off < 0x280 then
    let c := SMap.look {} x.cmps ((off - 0x200) / 16)
    match off % 16 with
    | 0 => c.addr.toNat | 4 => c.mask.toNat | 8 => c.ctl.toNat | _ => 0
  else if off = 0x300 then x.memCe.toNat
  else if off = 0x304 then x.memUe.toNat
  else 0

/-- The pairs of an engine's block (00 R7): the offset of the low word, and of its high word. -/
def engPairLo (off : Nat) : Bool := off = 0x24 || off = 0xC4

/-- Reads a word of engine `e`'s block through the pair latches (00 R7); every high word resets to 0. -/
def readEngWord (e off : Nat) (s : State) : W32 × State :=
  let k := 2 ^ 24 + 2 ^ 16 * e + off
  let v : W32 := BitVec.ofNat 32 (s.readEngReg e off)
  if engPairLo off then (v, s.setLatch (k + 4) (BitVec.ofNat 32 (s.readEngReg e (off + 4))))
  else if off ≥ 4 && engPairLo (off - 4) then (s.latch k 0, s)
  else (v, s)

/-- The packet an engine submits (R393): the bytes named by ENG_MB_REQ_ADDR and ENG_MB_REQ_LEN. -/
def mailboxSubmit (e : Nat) (s : State) : State :=
  if (s.space 5 (BitVec.ofNat 16 e)).reqBusy then s
  else
    let x := s.eng e
    let (bs, s) := engRead e x.mbReqAddr.toNat (min x.mbReqLen.toNat 65568) s
    submitBytes 5 (BitVec.ofNat 16 e) (bs.map (·.1)) s

/-- Writes a register of engine `e`'s block under its access codes (R8, T11.6). -/
def writeEngReg (e off : Nat) (v : W32) (s : State) : State :=
  if off = 0x110 then (if v.getLsbD 0 then mailboxSubmit e s else s)
  else if off = 0x118 then (if v.getLsbD 0 then takeReply 5 (BitVec.ofNat 16 e) s else s)
  else s.setEng e fun x =>
    if off = 0x00 then { x with faultVec := v.getLsbD 0, gie := v.getLsbD 1 }
    else if off = 0x0C then { x with epc := v }
    else if off = 0x10 then { x with ecause := v &&& 0x8F0000FF }
    else if off = 0x14 then { x with vbase := v }
    else if off = 0x18 then { x with ie := v.truncate 4 }.wake
    else if off = 0x1C then { x with ip := x.ip &&& ~~~(v.truncate 4) }
    else if off = 0x20 then (if v.getLsbD 0 then x.pend 19 else x)
    else if 0x40 ≤ off && off < 0x60 then { x with seg := SMap.put 0 x.seg ((off - 0x40) / 4) (v &&& 0x800FFFFF) }
    else if off = 0x80 then x.clocked s.time fun x => { x with timer := v, prescale := 0 }
    else if off = 0x84 then x.clocked s.time fun x => { x with timerCmp := v }
    else if off = 0x88 then x.clocked s.time fun x => { x with timerCtl := v &&& 0xC000FFFF, prescale := 0 }
    else if off = 0xC0 then { x with dmaLocal := v }
    else if off = 0xC4 then { x with dmaGlobal := (x.dmaGlobal >>> 32 <<< 32) ||| v.zeroExtend 48 }
    else if off = 0xC8 then { x with dmaGlobal := v.truncate 16 ++ x.dmaGlobal.truncate 32 }
    else if off = 0xCC then { x with dmaLen := v.truncate 18 }
    else if off = 0xD0 then
      let x := { x with dmaDir := v.getLsbD 30, dmaIrq := v.getLsbD 29 }
      let x := if v.getLsbD 31 then x.dmaStart else x
      if v.getLsbD 0 then x.dmaStop else x
    else if off = 0xD4 then
      { x with dma := { x.dma with done := x.dma.done && !v.getLsbD 30, error := x.dma.error && !v.getLsbD 29
                                   poisoned := x.dma.poisoned && !v.getLsbD 28 } }
    else if off = 0x100 then { x with mbReqAddr := v }
    else if off = 0x104 then { x with mbReqLen := v }
    else if off = 0x108 then { x with mbRplAddr := v }
    else if off = 0x10C then { x with mbRplMax := v }
    else if 0x200 ≤ off && off < 0x280 then
      let k := (off - 0x200) / 16
      let c := SMap.look {} x.cmps k
      let c := match off % 16 with
        | 0 => { c with addr := v } | 4 => { c with mask := v } | 8 => { c with ctl := v &&& 0xE0000007 } | _ => c
      { x with cmps := SMap.put {} x.cmps k c }
    else x

/-! ### The store buffer (R381) -/

/-- Performs one local entry: into a memory, or a register of the block by whole words. -/
def performLocal (e : Nat) (b : SbEntry) (s : State) : State :=
  if b.addr < 0x60000 then
    engWrite e b.addr ((leBytes b.size b.data.toNat).map fun v => (v, b.poison)) s
  else if b.size = 4 then writeEngReg e (b.addr - 0xF0000) (b.data.truncate 32) s
  else if b.size = 8 then
    writeEngReg e (b.addr - 0xF0000 + 4) ((b.data >>> 32).truncate 32)
      (writeEngReg e (b.addr - 0xF0000) (b.data.truncate 32) s)
  else s

/-- Performs the local entries at the head of the buffer, up to the first global one. -/
def drainLocal (e : Nat) : Nat → State → State
  | 0, s => s
  | n + 1, s =>
    match (s.eng e).sb with
    | [] => s
    | b :: rest =>
      if b.isGlobal then s
      else drainLocal e n (performLocal e b (s.setEng e fun x => { x with sb := rest }))

/-- Entries of the buffer. -/
def sbSize : Nat := 8

/-- Marks as sent the global stores that R381 lets go: those from the head on that go to one endpoint. -/
def sendStores (e : Nat) (s : State) : State :=
  let ep (b : SbEntry) : Option Endpoint :=
    match s.decode b.addr with | .inl _ => none | .inr d => some d.ep
  match (s.eng e).sb with
  | [] => s
  | h :: t =>
    let run := ((h :: t).takeWhile fun b => b.isGlobal && ep b == ep h).length
    s.setEng e fun x => { x with sb := (x.sb.take run).map (fun b => { b with sent := true }) ++ x.sb.drop run }

/-- The youngest entry that overlaps the bytes `a` to `a + n - 1` (R382). -/
def overlapEntry (sb : List SbEntry) (isGlobal : Bool) (a n : Nat) : Option SbEntry :=
  sb.reverse.find? fun b => b.isGlobal == isGlobal && b.addr < a + n && a < b.addr + b.size

/-! ### Taking an exception (R386 to R388) -/

/-- RUNNING or WAITING. -/
def Engine.live (x : Engine) : Bool := x.state == .running || x.state == .waiting

/-- Hold stops a live engine once its global load is done and its store buffer has drained; then its clock
stops (R396). -/
def holdEngine (e : Nat) (s : State) : State :=
  if (s.eng e).live && (s.eng e).gload.isNone then
    let s := drainLocal e sbSize s
    s.setEng e fun x => if x.sb.isEmpty then x.clocked s.time fun x => { x with holdStopped := true } else x
  else s

/-- The engines of a 24-byte mask. -/
def maskEngines (m : Nat) : List Nat := bitList m 192

/-- The engines in some state, as a mask. -/
def State.engMask (s : State) (f : Engine → Bool) : Nat :=
  bitsNat ((List.range 192).map fun e => f (s.eng e))

/-- A mask of engines as replies carry it: 24 bytes, then 8 reserved ones. -/
def maskData (m : Nat) : List Byte := leBytes 24 m ++ List.replicate 8 0

/-- The reply data of ENG_STOP: the engines now STOPPED (R402, assumption log 53). -/
def State.stoppedData (s : State) : List Byte := maskData (s.engMask fun x => x.state == .stopped)

/-- The reply data of DBG_ENG_CONTROL: the engines HALTED (16 R558, assumption log 53). -/
def State.haltedData (s : State) : List Byte := maskData (s.engMask fun x => x.state == .halted)

/-- The ENG_STOP that holds the intake ends when the engines of its mask are STOPPED (R402). -/
def reportStop (s : State) : State :=
  match s.intake.busy with
  | none => s
  | some h =>
    match h.work with
    | .engStop m =>
      if (maskEngines m.toNat).all fun e => (s.eng e).state == .stopped then finishHeld Status.ok s.stoppedData s else s
    | _ => s

/-- Every DBG_ENG_CONTROL whose engines are HALTED ends (16 R552). -/
def reportHalts (s : State) : State :=
  s.intake.table.foldl (fun s c =>
    match c.work with
    | .engHalt m =>
      if !c.done && (maskEngines m.toNat).all fun e => (s.eng e).state == .halted then
        reach c.port c.source c.tag Status.ok s.haltedData s
      else s
    | _ => s) s

/-- Every ENG_STOP and DBG_ENG_CONTROL whose engines have reached the state it awaits ends. -/
def reportEngines (s : State) : State := reportHalts (reportStop s)

/-- Finishes a stop that was asked for, by ENG_STOP (R402) or by Hold (R396), once nothing is outstanding. -/
def settle (e : Nat) (s : State) : State :=
  let s := if s.power.mode == .hold then holdEngine e s else s
  let x := s.eng e
  if x.stopAsked.isSome && x.gload.isNone then
    let s := drainLocal e sbSize s
    if (s.eng e).sb.isEmpty then
      reportEngines (s.setEng e (Engine.clocked s.time fun x =>
        { x with state := .stopped, stopAsked := none, haltAsked := none, steps := 0, wasWaiting := false
                 dma := { x.dma with held := none } }))
    else s
  else s

/-- Takes exception or interrupt `code` with a grout status, between instructions. A fault with fault_vec
0 or in a handler puts the engine in FAULTED, its store buffer draining (R388); any other writes ENG_EPC
and ENG_ECAUSE, sets exc_active and jumps to ENG_VBASE + 16 code (R386). During a step the entry ends the
step (16 R550). -/
def takeException (e code : Nat) (status : BitVec 4) (s : State) : State :=
  let x := s.eng e
  if code ≤ 8 && (!x.faultVec || x.excActive) then
    let s := s.setEng e fun x => { x with state := .faulted, faultCode := BitVec.ofNat 8 code, steps := 0 }
    let s := drainLocal e sbSize s
    logEvent 0x8001 [e, code, status.toNat, x.pc.toNat, x.faultAddr.toNat] s
  else
    s.setEng e fun x =>
      { x with epc := x.pc, excActive := true
               ecause := BitVec.ofNat 32 (code + status.toNat * 2 ^ 24 + (if code ≥ 16 then 2 ^ 31 else 0))
               pc := x.vbase + BitVec.ofNat 32 (16 * code)
               storeErr := x.storeErr && code != 6
               state := if x.state == .waiting then .running else x.state
               haltAsked := if x.steps ≠ 0 then some 3 else x.haltAsked
               steps := 0 }

/-! ### Issue and completion -/

/-- The engine executes: RUNNING, with no load outstanding, no stop or halt asked for, its clock running and
the part not in Hold (R396). -/
def State.executes (s : State) (e : Nat) : Bool :=
  let x := s.eng e
  x.state == .running && x.gload.isNone && x.stopAsked.isNone && x.haltAsked.isNone && !x.holdStopped &&
  s.power.mode != .hold

/-- The actions of the comparators of some kind codes that an address hits (R394). -/
def Engine.cmpHits (x : Engine) (kinds : List Nat) (a : W32) : BitVec 3 :=
  x.cmps.foldl (fun acc e =>
    let c := e.2
    if c.ctl.getLsbD 31 && kinds.contains (bitsAt c.ctl.toNat 29 2) && a &&& c.mask == c.addr &&& c.mask
    then acc ||| c.ctl.truncate 3 else acc) 0

/-- Whether the mode table lets an engine halt: not in Quarantine (14 T14.3). -/
def State.haltPermitted (s : State) : Bool := s.secAxis != .quarantine

/-- What comparator actions do: [1] halts and then [0] is not taken, [0] raises BREAK. `none`: go on. -/
def cmpAct (e : Nat) (acts : BitVec 3) (s : State) : Option State :=
  if acts.getLsbD 1 && s.haltPermitted then
    some (s.setEng e fun x => { x with haltAsked := some 1, steps := 0 })
  else if acts.getLsbD 0 then some (takeException e 8 0 s)
  else none

/-- What precedes an instruction: STORE_ERROR (R387), the FETCH check (R376) and the fetch comparators
(R394). `.error`: the instruction is not executed. -/
def preIssue (e : Nat) (s : State) : Except State Unit :=
  let x := s.eng e
  if !s.executes e then .error s
  else if x.storeErr then .error (takeException e 6 x.storeErrStatus s)
  else if x.pc.toNat ≥ 0x20000 then .error (takeException e 2 0 s)
  else match cmpAct e (x.cmpHits [0] x.pc) s with
    | some s => .error s
    | none => .ok ()

/-- The walk of R418 over the loop levels: whether one loops back, and to where. -/
def loopWalk (a : W32) : List Nat → Engine → Engine × Option W32
  | [], x => (x, none)
  | k :: ks, x =>
    if x.lpact.getLsbD k && SMap.look 0 x.le k == a then
      let c := SMap.look 0 x.lc k
      if c.toNat > 1 then ({ x with lc := SMap.put 0 x.lc k (c - 1) }, some (SMap.look 0 x.ls k))
      else loopWalk a ks { x with lpact := setBit x.lpact k false }
    else loopWalk a ks x

/-- The instructions from address `a` to the last word at `le` are at most `n` (R420): a prefix word takes eight bytes. -/
def bodyFits (mem : SMap MByte) (le : Nat) : Nat → Nat → Bool
  | 0, a => le < a
  | n + 1, a => le < a ||
    bodyFits mem le n (a + if (SMap.look {} mem (0x40000 + a + 3)).decode.1.toNat / 4 = 0x3F then 8 else 4)

/-- The loop level the repeat cache serves: the highest active one whose body holds at most 16 instructions (R420). -/
def Engine.topLevel (x : Engine) : Option Nat :=
  [3, 2, 1, 0].find? fun k =>
    x.lpact.getLsbD k && bodyFits x.mem (SMap.look 0 x.le k).toNat 16 (SMap.look 0 x.ls k).toNat

/-- The repeat cache captures the instruction at the pc while the body of the highest active level
executes, up to 16 instructions (R420). -/
def Engine.capture (x : Engine) (len : Nat) : Engine :=
  match x.topLevel with
  | none => x
  | some k =>
    let a := x.pc.toNat
    if (SMap.look 0 x.ls k).toNat ≤ a && a ≤ (SMap.look 0 x.le k).toNat && x.cache.length < 16 &&
        (SMap.look [] x.cache a).isEmpty then
      { x with cache := SMap.put [] x.cache a (SMap.run {} x.mem (0x40000 + a) len) }
    else x

/-- One instruction of a step is done; the last ends the step (16 R548). -/
def Engine.countStep (x : Engine) : Engine :=
  if x.steps = 0 then x
  else if x.steps = 1 then { x with steps := 0, haltAsked := some 3 } else { x with steps := x.steps - 1 }

/-- An instruction of `len` bytes completes in sequence: the loop-end test, then the next address (R418). -/
def Engine.advance (x : Engine) (len : Nat) : Engine :=
  let x := x.capture len
  let (x, t) := loopWalk (x.pc + BitVec.ofNat 32 (len - 4)) [3, 2, 1, 0] x
  { x with pc := t.getD (x.pc + BitVec.ofNat 32 len) }.countStep

/-- The jump of a call, a return or a register jump: no level is cleared (R419). -/
def Engine.goto (x : Engine) (target : W32) : Engine := { x.capture 4 with pc := target }.countStep

/-- A taken branch or JMP: a target outside an active level's body clears that level and every higher
one (R419). -/
def Engine.branch (x : Engine) (target : W32) : Engine :=
  let out (k : Nat) : Bool :=
    x.lpact.getLsbD k && !(decide ((SMap.look 0 x.ls k).toNat ≤ target.toNat) &&
      decide (target.toNat ≤ (SMap.look 0 x.le k).toNat))
  let lp := match [0, 1, 2, 3].find? out with
    | none => x.lpact
    | some k => x.lpact &&& BitVec.ofNat 4 (2 ^ k - 1)
  { x.capture 4 with pc := target, lpact := lp }.countStep

/-- A register operation of the datapath: the engine with its results written, or the code of the precise
exception it raises instead. -/
abbrev EngOp := Engine → Except Nat Engine

/-- One instruction that touches registers only. -/
def runEng (e : Fin 192) (op : EngOp) (s : State) : State :=
  match preIssue e s with
  | .error s => s
  | .ok () =>
    match op (s.eng e) with
    | .error code => takeException e code 0 s
    | .ok x => s.setEng e fun _ => x.advance 4

/-- One control-flow instruction: the operation sets the pc itself. -/
def runFlow (e : Fin 192) (op : EngOp) (s : State) : State :=
  match preIssue e s with
  | .error s => s
  | .ok () =>
    match op (s.eng e) with
    | .error code => takeException e code 0 s
    | .ok x => s.setEng e fun _ => x

/-! ### Memory instructions (R378 to R382, R409, R427) -/

/-- Where an access lands: a memory byte or register of the engine's own window, or grout. -/
inductive Place where
  | mem (a : Nat)
  | reg (off : Nat)
  | glob (a : Nat)
deriving DecidableEq, Repr

/-- A window offset (T11.1). -/
def placeWindow (o : Nat) : Option Place :=
  if o < 0x60000 then some (.mem o) else if 0xF0000 ≤ o && o < 0x100000 then some (.reg (o - 0xF0000)) else none

/-- T11.1 and R378: none where there is no target (NO_SEGMENT). -/
def Engine.place (x : Engine) (e : Nat) (a : W32) : Option Place :=
  if a.toNat < 2 ^ 31 then placeWindow a.toNat
  else
    let g := SMap.look 0 x.seg (bitsAt a.toNat 28 3)
    if !g.getLsbD 31 then none
    else
      let ga := g.toNat % 2 ^ 20 * 2 ^ 28 + a.toNat % 2 ^ 28
      if ga / 2 ^ 20 = 0x3000000 + e then placeWindow (ga % 2 ^ 20) else some (.glob ga)

/-- The checks an access passes before anything happens: alignment (R379), its place, a poisoned value
for the register block (R385). The place, or the exception's code. -/
def Access.check (x : Engine) (e : Nat) (a : Access) : Except Nat Place :=
  if a.addr.toNat % a.size ≠ 0 then .error 3
  else match x.place e a.addr with
    | none => .error 4
    | some p =>
      match p with
      | .reg _ => if a.store && (a.value x).2 then .error 7 else .ok p
      | _ => .ok p

/-- The first error of a list of checks, or all the places. -/
def checkAll (x : Engine) (e : Nat) : List Access → Except Nat (List (Access × Place))
  | [] => .ok []
  | a :: as =>
    match a.check x e with
    | .error c => .error c
    | .ok p => match checkAll x e as with
      | .error c => .error c
      | .ok r => .ok ((a, p) :: r)

/-- How the accesses of an instruction went. -/
inductive AccResult where
  /-- done: the loads with what they returned -/
  | done (s : State) (loads : List (Access × List Byte × Bool))
  /-- the engine stalls here; the state holds what has drained meanwhile -/
  | stall (s : State)
  /-- a global load must be sent -/
  | send (a : Nat)

/-- The key of a place in the store buffer: global or local, and the address. -/
def Place.key : Place → Bool × Nat
  | .mem a => (false, a)
  | .reg o => (false, 0xF0000 + o)
  | .glob a => (true, a)

/-- The bytes of the register block from offset `off` on, word by word in rising order (00 R600). -/
def regBytes (e off n : Nat) (s : State) : List Byte × State :=
  let ws := (List.range ((off + n - 1) / 4 - off / 4 + 1)).map (off / 4 + ·)
  let (bs, s) := ws.foldl (fun (acc : List Byte × State) w =>
    let (v, s) := readEngWord e (4 * w) acc.2
    (acc.1 ++ leBytes 4 v.toNat, s)) ([], s)
  ((bs.drop (off % 4)).take n, s)

/-- Reads what a load without a buffered overlap returns; a global one takes the next answered value. -/
def loadPlace (e n : Nat) (p : Place) (got : List (List Byte × Bool)) (s : State) :
    Option ((List Byte × Bool) × List (List Byte × Bool) × State) :=
  match p with
  | .mem a =>
    let (bs, s) := engRead e a n s
    some ((bs.map (·.1), bs.any (·.2)), got, s)
  | .reg off => let (bs, s) := regBytes e off n s; some ((bs, false), got, s)
  | .glob _ => match got with
    | [] => none
    | g :: gs => some (g, gs, s)

/-- Performs the accesses of an instruction in order (R381, R382): a store enters the buffer, a load is
forwarded from an equal youngest entry, waits for a partial overlap, or reads. `vals` are the values the
stores read before any result was written (R422). -/
def runAccesses (e : Nat) : List (Access × Place × W64 × Bool) → List (List Byte × Bool) →
    List (Access × List Byte × Bool) → State → AccResult
  | [], _, acc, s => .done s acc.reverse
  | (a, p, v, vp) :: rest, got, acc, s =>
    let (g, addr) := p.key
    if a.store then
      let s := if (s.eng e).sb.length < sbSize then s else drainLocal e sbSize s
      if (s.eng e).sb.length < sbSize then
        runAccesses e rest got acc (s.setEng e fun x =>
          { x with sb := x.sb ++ [{ isGlobal := g, addr, size := a.size, data := v, poison := vp, sent := false }] })
      else .stall s
    else
      match overlapEntry (s.eng e).sb g addr a.size with
      | some b =>
        if b.addr = addr && b.size = a.size then
          runAccesses e rest got ((a, leBytes a.size b.data.toNat, b.poison) :: acc) s
        else
          let s := drainLocal e sbSize s
          match overlapEntry (s.eng e).sb g addr a.size with
          | some _ => .stall s
          | none =>
            match loadPlace e a.size p got s with
            | none => .send addr
            | some ((bs, bp), got, s) => runAccesses e rest got ((a, bs, bp) :: acc) s
      | none =>
        match loadPlace e a.size p got s with
        | none => .send addr
        | some ((bs, bp), got, s) => runAccesses e rest got ((a, bs, bp) :: acc) s

/-- The access of LD or ST, as a list. -/
def MemInstr.accesses (x : Engine) : MemInstr → Except Nat (List Access)
  | .ld rd m => (MemForm.access x false rd.val m).map ([·])
  | .pair s1 s2 size sx _ =>
    if s1.en && s2.en && s1.ptr == s2.ptr then .error 1
    else match Slot.access x s1 size.val sx, Slot.access x s2 size.val sx with
      | .ok a, .ok b => .ok (a ++ b)
      | .error c, _ => .error c
      | _, .error c => .error c

/-- Runs the accesses `as` and the register operation `op` of one instruction as one unit (R422, R427):
every check first, then memory, then the operation's result, slot 1's load, slot 2's load and the pointer
updates. -/
def runMem (e : Nat) (instr : MemInstr) (as : Except Nat (List Access)) (op : EngOp) (len : Nat)
    (got : List (List Byte × Bool)) (s : State) : State :=
  let x := s.eng e
  match as with
  | .error c => takeException e c 0 s
  | .ok as =>
    match op x with
    | .error c => takeException e c 0 s
    | .ok _ =>
      match checkAll x e as with
      | .error c => takeException e c 0 s
      | .ok ps =>
        let acts := as.foldl (fun acc a => acc ||| x.cmpHits [if a.store then 2 else 1, 3] a.addr) 0
        match cmpAct e acts s with
        | some s => s
        | none =>
          let items := ps.map fun (a, p) => (a, p, a.value x)
          match runAccesses e items got [] s with
          | .stall s => s
          | .send a =>
            s.setEng e fun x => { x with gload := some { instr, addr := BitVec.ofNat 48 a, more := [], got } }
          | .done s loads =>
            s.setEng e fun x =>
              let x := match op x with | .ok x => x | .error _ => x
              let x := loads.foldl (fun x l => l.1.load l.2.1 l.2.2 x) x
              (as.foldl (fun x a => a.post x) x).advance len

/-- The accesses and operation of ST. -/
def runStore (e : Nat) (rd : Fin 32) (m : MemForm) (s : State) : State :=
  runMem e (.ld rd m) ((MemForm.access (s.eng e) true rd.val m).map ([·])) .ok 4 [] s

/-! ### Fences (R384) -/

/-- A fence waits until every earlier store has performed (R384); `ready` adds FENCE.DMA's condition. -/
def runFence (e : Fin 192) (ready : Engine → Bool) (f : Engine → Engine) (s : State) : State :=
  match preIssue e s with
  | .error s => s
  | .ok () =>
    let s := drainLocal e sbSize s
    let x := s.eng e
    if x.sb.isEmpty && ready x then s.setEng e fun x => (f x).advance 4 else s

/-! ### Stops, starts and halts (R401, R402, R549) -/

/-- Stops an engine under ENG_STOP: after a global load and the store buffer, its DMA aborted in mode 1. -/
def stopEngine (mode1 : Bool) (e : Nat) (s : State) : State :=
  let x := s.eng e
  if x.state == .stopped || x.state == .wedged then s
  else
    let s := s.setEng e fun x => if mode1 then { x.dmaStop with stopAsked := some true } else { x with stopAsked := some false }
    settle e s

/-- ENG_START's effect on one engine (R401, R408). -/
def Engine.start (x : Engine) (pc : W32) (clkDiv : Nat) (clear : Bool) : Engine :=
  let x := { x with state := .running, pc := pc, clkDiv := BitVec.ofNat 5 clkDiv
                    excActive := false, storeErr := false, storeErrOverrun := false, ip := 0, sb := []
                    sr := 0, fp := 0, lpact := 0, lc := [], ls := [], le := [], cache := []
                    gload := none, stopAsked := none, haltAsked := none, steps := 0
                    stepNoInt := false, wasWaiting := false, dma := { x.dma with held := none } }
  if clear then { x with g := [], ac := [], p := [], m := [], b := [], l := [] } else x

/-- Reads a register of the hub ENG block (T11.10). -/
def State.readEngHub (s : State) (off : Nat) : Nat :=
  let w (f : Engine → Bool) : Nat :=
    bitsNat ((List.range 32).map fun i => f (s.eng (32 * (off % 32 / 4) + i)))
  if off % 32 ≥ 24 || off ≥ 0x80 then 0
  else if off < 0x20 then w fun x => x.state == .running || x.state == .waiting
  else if off < 0x40 then w fun x => x.state == .halted
  else if off < 0x60 then w fun x => x.state == .faulted
  else w fun x => x.state == .wedged

/-- The 32-byte record of ENG_STATUS (T11.14). -/
def Engine.record (x : Engine) : List Byte :=
  leBytes 1 x.state.code ++ leBytes 1 x.clkDiv.toNat ++ leBytes 1 x.ecause.toNat ++
  leBytes 1 (b2n x.excActive + 2 * b2n x.storeErr + 4 * b2n x.dma.busy) ++ leBytes 4 x.pcWord ++
  leBytes 4 x.epc.toNat ++ leBytes 1 x.sb.length ++ leBytes 3 0 ++ leBytes 8 x.faultAddr.toNat ++
  leBytes 4 x.memCe.toNat ++ leBytes 4 x.memUe.toNat

/-- An engine after a reset, its memories filled with 0 (R395, 05 R171). -/
def Engine.fresh : Engine := {}

end Sys2Proof.Machine
end

