-- ==== Sys2Proof/Machine/StopOps.lean ====
section
/-!
DEFINITION. What ends: an image load that fails or ends early (06 R192 to R197), a locked sequence (02
R69, R70), the debug session (14 R478); and the security alarms with the entry into Quarantine (14 R470,
R471).
-/
namespace Sys2Proof.Machine
open Sys2Proof

/-! ### Loads (06) -/

/-- The unfinished background command of an opcode, if one runs. -/
def State.running (s : State) (opcode : BitVec 16) : Option Completion :=
  s.intake.table.find? fun c => c.opcode == opcode && !c.done

/-- Finishes the background command of an opcode that is running. -/
def finishOp (opcode status : BitVec 16) (data : List Byte) (s : State) : State :=
  match s.running opcode with
  | none => s
  | some c => finishEntry c.port c.source c.tag status data s

/-- CFG_LAST. -/
def State.cfgLast (s : State) : Nat :=
  b2n s.cfg.lastKind + s.cfg.lastCause.toNat * 2 ^ 8 + s.cfg.lastStatus.toNat * 2 ^ 16

/-- The 8-byte completion data of CFG_DATA (R206). -/
def State.cfgBytes (s : State) : List Byte := leBytes 8 s.cfg.bytes.toNat

/-- A boot load runs. -/
def State.bootRuns (s : State) : Bool :=
  s.cfg.bootAsked.isSome || (match s.cfg.load with | some l => l.source != .host | none => false)

/-- The load ends with a failure or refusal; its region stays in reset (R195). A boot load goes on to the
fallback once (R197), except when Dormant or Quarantine ended it (R194). -/
def loadStop (status : BitVec 16) (cause : Nat) (s : State) : State :=
  match s.cfg.load with
  | none => s
  | some l =>
    let s := { s with cfg := { s.cfg with
      lastStatus := status, lastCause := BitVec.ofNat 8 cause, lastKind := bitAt (fieldAt l.header 5 1) 0 } }
    match l.source with
    | .host =>
      let stream := match s.cfg.session with
        | some n => some { n with stream := none, fetching := false } | none => none
      let s := { s with cfg := { s.cfg with
        load := some { l with phase := .failed, rx := [] }, session := stream } }
      finishOp 0x0201 status s.cfgBytes s
    | .boot false =>
      if cause = 9 then finishOp 0x0204 status (leBytes 4 s.cfgLast) { s with cfg.load := none }
      else
        logEvent 0x3014 [status.toNat, cause]
          { s with cfg := { s.cfg with load := none, bootAsked := some true
                                       bootFirst := some (status, BitVec.ofNat 8 cause) } }
    | .boot true =>
      let s := { s with cfg.load := none }
      let s := if cause = 9 then s else logEvent 0x3015 [status.toNat, cause] s
      finishOp 0x0204 status (leBytes 4 s.cfgLast) s

/-- The image is incomplete: its trailer has not verified. -/
def Load.unfinished (l : Load) : Bool := l.phase == .awaitHeader || l.phase == .writing

/-- A cause ends the load early: while its image is incomplete, and Dormant or Quarantine (cause 9) a boot load up to its
release too (R194, R202). -/
def Load.endsEarly (l : Load) (cause : Nat) : Bool :=
  l.unfinished || (cause == 9 && l.source != .host && l.phase == .verifying)

/-- The image ends early (R194). -/
def loadTruncated (cause : Nat) (s : State) : State :=
  match s.cfg.load with
  | none =>
    if cause = 9 && s.cfg.bootAsked.isSome then
      let s := logEvent 0x3012 [0, 0, cause] { s with cfg := { s.cfg with
        bootAsked := none, lastStatus := Status.imageTruncated, lastCause := 9, lastKind := false } }
      finishOp 0x0204 Status.imageTruncated (leBytes 4 s.cfgLast) s
    else s
  | some l =>
    if l.endsEarly cause then
      loadStop Status.imageTruncated cause (logEvent 0x3012 [l.frames, l.bytes, cause] s)
    else s

/-- Entry into Dormant ends a boot load in whatever phase it is (R194, R202). -/
def loadLost (s : State) : State :=
  match s.cfg.load with
  | some l =>
    if l.source != .host then loadStop Status.imageTruncated 9 (logEvent 0x3012 [l.frames, l.bytes, 9] s)
    else loadTruncated 9 s
  | none => loadTruncated 9 s

/-- Closes the host session; a load that no longer needs it goes with it. -/
def closeSession (s : State) : State :=
  let keep := match s.cfg.load with
    | some l => if l.source == .host && (l.phase == .failed || l.unfinished) then none else some l
    | none => none
  { s with cfg := { s.cfg with session := none, load := keep } }

/-! ### The locked sequence (02 R69, R70) -/

/-- The steward aborts the locked sequence: `cause` 0 timeout, 1 Dormant, 2 Quarantine. -/
def lockAbort (cause : Nat) (s : State) : State :=
  match s.intake.lock with
  | none => s
  | some l =>
    let s := logEvent 0x2004 [l.port.val, l.source.toNat, l.opcode.toNat, cause] { s with intake.lock := none }
    if l.opcode == 0x0200 then closeSession (loadTruncated (if cause = 0 then 8 else 9) s) else s

/-! ### The debug session (14 R478) -/

/-- Probes stop recording (14 R471, R478). -/
def probesStop (s : State) : State :=
  { s with grout.probes := SMap.mapAll {} s.grout.probes fun _ p => { p with record := false } }

/-- Debug instructions fall back to identification. -/
def instrFallback (s : State) : State :=
  if s.dbg.instr == 0x12 then { s with dbg.instr := 0x02 } else s

/-- Ends the session: `cause` 0 lock, 1 reset, 2 Dormant, 3 Quarantine, 4 mode change. -/
def endSession (cause : Nat) (s : State) : State :=
  match s.sec.session with
  | none => s
  | some n =>
    let s := { s with sec.session := none }
    let s := instrFallback (probesStop (collectorsStop (triggersDisarm (disarmCapture s))))
    logEvent 0x2061 [n.port.val, n.source.toNat, cause] s

/-! ### Alarms and Quarantine (14 R470, R471) -/

/-- A region whose key is gone (13 T13.6): `cause` 1 Quarantine, 2 wake training. -/
def regionKeyless (cause r : Nat) (s : State) : State :=
  if (s.region r).state == .off then s
  else logEvent 0x7102 [r, cause]
    { s with dram.regions := SMap.upd {} s.dram.regions r fun m => { m with state := .keyless, key := [] } }

/-- Step 4 of R471: every memory key, its wrap and its slot zeroised, the metadata cache discarded and
every enabled region KEYLESS (13 R441). -/
def zeroiseKeys (s : State) : State :=
  let s := { s with sec.keys := s.sec.keys.filter (fun e => e.1 < 16), power.wraps := [], dram.cache := [] }
  (List.range 8).foldl (fun s r => regionKeyless 1 r s) s

/-- Ethernet and raw lanes enter electrical idle: in Quarantine (09 R327) and under freeze bit 2 (16 R553). -/
def lanesQuarantine (s : State) : State :=
  let s := ethAllDown 3 s
  { s with lanes.lanes := SMap.mapAll {} s.lanes.lanes fun _ l =>
      if l.use.toNat > 2 && (l.state == .up || l.state == .bringup || l.state == .retraining) then
        { l.unlock with state := .idle } else l }

/-- Codes of the power modes (14 T14.14). -/
def PwrMode.code : PwrMode → Nat
  | .run => 0 | .trim => 1 | .hold => 2 | .dormant => 3

/-- Steps 1 to 5 of R471. -/
def quarantineSteps (s : State) : State :=
  let s := { s with sec.caches := [] }
  let s := probesStop (collectorsStop (dropHeldPorts s))
  let s := sendLeave (endSession 3 (lockAbort 2 (captureAbort 9 s)))
  let s := match s.cfg.load with
    | some l => if l.source == .host then s else loadTruncated 9 s
    | none => loadTruncated 9 s
  let s := zeroiseKeys s
  let s := (List.range 192).foldl (fun s e => stopEngine true e s) s
  { lanesQuarantine s with dbg := { s.dbg with
    testActive := false, instr := if s.dbg.testActive then 0xFF else s.dbg.instr } }

/-- The latch has set: steps 1 to 6 of R471. -/
def quarantineEntry (s : State) : State :=
  let s := quarantineSteps s
  logEvent 0x2041 [s.sec.firstCause.toNat, s.power.mode.code] s

/-- An alarm source is raised (R470): 0 integrity, 1 exhaust, 2 tamper, 3 lockout, 4 guest. It is logged
with the policy applied; it sets the latch where the policy is yes in Open or Sealed. -/
def raiseAlarm (src : Nat) (s : State) : State :=
  let pol := s.sec.policy.getLsbD src
  let s := { s with sec.seen := setBit s.sec.seen src true }
  let s := logEvent 0x2040 [src, b2n pol] s
  if pol && s.sec.stored != .blank && !s.evr.returnState then
    if s.sec.latch then { s with sec.latching := setBit s.sec.latching src true }
    else quarantineEntry { s with sec := { s.sec with
      latch := true, firstCause := BitVec.ofNat 3 src, latching := setBit s.sec.latching src true } }
  else s

/-- Default policies of a stored mode (T14.7): bits integrity, exhaust, tamper, lockout, guest. -/
def SecMode.policy : SecMode → BitVec 5
  | .blank => 0 | .opened => 4 | .sealed => 7

/-- The stored mode changes (R468, R495): policies return to its defaults and 0x2052 is logged. -/
def setStored (m : SecMode) (cause : Nat) (s : State) : State :=
  let code : SecMode → Nat := fun | .blank => 0 | .opened => 1 | .sealed => 2
  let old := s.sec.stored
  logEvent 0x2052 [code old, code m, cause] { s with sec := { s.sec with stored := m, policy := m.policy } }

end Sys2Proof.Machine
end

