-- ==== Sys2Proof/Machine/DramOps.lean ====
section
/-!
DEFINITION. DRAM and inline encryption (13): lines and their decodes (R438 to R440), the ciphertext, tags
and counter tree of a region with the metadata cache (R445 to R449), the accesses of one request, the
port queues (R434, R435), refresh and training, and the DRC and MEK registers.
-/
namespace Sys2Proof.Machine
open Sys2Proof

/-! ### Answers -/

/-- A target answers a request (10 R345): the request is no longer outstanding at it and its response is
under way. A response from an endpoint isolated as dead is absorbed and counted (10 R356). -/
def answer (r : GReq) (status : BitVec 4) (data : List Byte) (poison : BitVec 4) (s : State) : State :=
  let dead := match s.decode r.addr.toNat with | .inl _ => false | .inr d => s.isDead d.ep
  let s := { s with grout.inflight := s.grout.inflight.erase r }
  if dead then { s with grout.absorbed := satAdd s.grout.absorbed 1 }
  else { s with grout.responses := s.grout.responses ++ [{ req := r, status, data, poison }] }

/-- The byte enables of a request from its first byte on. -/
def byteEnables (r : GReq) : List Bool :=
  (List.range (r.len.toNat + 1)).map fun i => r.byteEn.getLsbD (r.addr.toNat % 256 + i)

/-- The 64-byte units of the 256-byte block that hold a poisoned byte of a run from `a` on. -/
def unitPoison (a : Nat) (ps : List Bool) : BitVec 4 :=
  BitVec.ofNat 4 (bitsNat ((List.range 4).map fun q =>
    (ps.zipIdx).any fun p => p.1 && (a + p.2) % 256 / 64 == q))

/-! ### XTS and tags (R445 to R447) -/

/-- The tweak of a line: address[47:6] and the 56-bit counter. -/
def xtsTweak (line ctr : Nat) : List Byte := leBytes 16 (line % 2 ^ 42 + ctr % 2 ^ 56 * 2 ^ 42)

/-- The next block's tweak: multiplication by x, little-endian (AES-XTS). -/
def xtsNext (t : List Byte) : List Byte :=
  let v := 2 * leNat t
  leBytes 16 (if v ≥ 2 ^ 128 then Nat.xor (v - 2 ^ 128) 0x87 else v)

/-- XTS over whole blocks with the block function `f`. -/
def xtsGo (f : List Byte → List Byte) : List Byte → List (List Byte) → List Byte
  | _, [] => []
  | t, b :: bs => xorBytes (f (xorBytes b t)) t ++ xtsGo f (xtsNext t) bs

/-- K1, K2 and K3 of a 96-byte region key (R442). -/
def keyPart (key : List Byte) (i : Nat) : List Byte := slice key (32 * i) 32

/-- A line's ciphertext (R445). -/
def xtsEncrypt (key : List Byte) (line ctr : Nat) (p : List Byte) : List Byte :=
  xtsGo (Crypto.encrypt (keyPart key 0)) (Crypto.encrypt (keyPart key 1) (xtsTweak line ctr)) (chunksOf 16 4 p)

/-- A line's plaintext. -/
def xtsDecrypt (key : List Byte) (line ctr : Nat) (c : List Byte) : List Byte :=
  xtsGo (Crypto.decrypt (keyPart key 0)) (Crypto.encrypt (keyPart key 1) (xtsTweak line ctr)) (chunksOf 16 4 c)

/-- The 8-byte tag of a line or a counter line (R445, R447). -/
def lineTag (key : List Byte) (line ctr : Nat) (body : List Byte) : List Byte :=
  (Crypto.cmac (keyPart key 2) (leBytes 8 line ++ leBytes 8 ctr ++ body)).take 8

/-! ### The carve-out (R446) -/

/-- Lines of the counter levels 0 to L of a region of `n` data lines. -/
def ctrLevels : Nat → Nat → List Nat
  | 0, _ => []
  | f + 1, n => let m := ceilDiv n 8; m :: (if m ≤ 8 then [] else ctrLevels f m)

/-- The levels of a region of `size` bytes. -/
def levelsOf (size : Nat) : List Nat := ctrLevels 16 (size / 64)

/-- meta_len. -/
def metaLenOf (size : Nat) : Nat :=
  roundUp 4096 (8 * (size / 64) + 64 * (levelsOf size).foldl (· + ·) 0)

/-- Where level `k` starts inside the carve-out. -/
def levelStart (size k : Nat) : Nat := 8 * (size / 64) + 64 * ((levelsOf size).take k).foldl (· + ·) 0

/-- The level and line of a carve-out offset; none in the tag area or past the levels. -/
def levelAt (size off : Nat) : Option (Nat × Nat) :=
  (List.range (levelsOf size).length).findSome? fun k =>
    let a := levelStart size k
    if a ≤ off && off < a + 64 * nth 0 (levelsOf size) k then some (k, (off - a) / 64) else none

/-- A counter slot of a counter line (R446). -/
def ctrSlot (bytes : List Byte) (i : Nat) : Nat := leNat (slice bytes (7 * i) 7)

/-- A counter line with one counter replaced. -/
def putSlot (bytes : List Byte) (i v : Nat) : List Byte := splice bytes (7 * i) (leBytes 7 v)

/-! ### Bytes as they stand (R431, R450) -/

/-- The bytes a region's initialisation left at a 64-byte line (R450). -/
def Fill.lineBytes (f : Fill) (line : Nat) : Option (List Byte) :=
  let a := 64 * line
  let zeros := List.replicate 64 (0 : Byte)
  if f.base ≤ a && a < f.base + f.size then some (xtsEncrypt f.key line 0 zeros)
  else if f.metaBase ≤ a && a < f.metaBase + f.metaLen then
    let off := a - f.metaBase
    if off < 8 * (f.size / 64) then
      some ((List.range 8).map fun i =>
        let l := f.base / 64 + off / 8 + i
        lineTag f.key l 0 (xtsEncrypt f.key l 0 zeros)).flatten
    else match levelAt f.size off with
      | some _ => some (zeros.take 56 ++ lineTag f.key line 0 (zeros.take 56))
      | none => none
  else none

/-- The 64 stored bytes of a line. -/
def State.rawLine (s : State) (line : Nat) : List Byte :=
  let t := SMap.look 0 s.dram.written (bitsAt (64 * line) 8 3)
  let base := (s.dram.fills.filter fun f => decide (t ≤ f.stamp)).findSome? fun f => f.lineBytes line
  (List.range 64).map fun i =>
    let a := 64 * line + i
    match SMap.look none s.dram.mem a with
    | some v => v
    | none => match base with
      | some bs => nth 0 bs i
      | none => Config.dramByte t a

/-- Stores the 64 bytes of a line, with its poison mark (R440). -/
def putLine (line : Nat) (bs : List Byte) (poison : Bool) (s : State) : State :=
  { s with dram := { s.dram with
      mem := SMap.putRun none s.dram.mem (64 * line) ((bs.take 64).map some)
      poisoned := SMap.put false s.dram.poisoned line poison } }

/-- The line is stored poisoned. -/
def State.linePoisoned (s : State) (line : Nat) : Bool := SMap.look false s.dram.poisoned line

/-! ### Reads of a line (T13.3) -/

/-- A channel. -/
def State.chan (s : State) (c : Nat) : Chan := SMap.look {} s.dram.chans c

/-- Writes a channel. -/
def State.setChan (s : State) (c : Nat) (f : Chan → Chan) : State :=
  { s with dram.chans := SMap.upd {} s.dram.chans c f }

/-- Counts and logs a non-clean read of a line (T13.3, T13.9): `kind` 1 corrected, 2 uncorrectable, 3
stored poison; `source` 0 read, 1 merge, 2 metadata. -/
def noteDecode (line kind source device : Nat) (s : State) : State :=
  let a := 64 * line
  let c := bitsAt a 8 3
  let err : W64 := BitVec.ofNat 64 (a + (if kind = 1 then device else 0) * 2 ^ 55 + source * 2 ^ 60 + kind * 2 ^ 62)
  let s := s.setChan c fun x =>
    { x with lastErr := err, ce := if kind = 1 then satAdd x.ce 1 else x.ce
             ue := if kind = 2 then satAdd x.ue 1 else x.ue
             poison := if kind = 3 then satAdd x.poison 1 else x.poison }
  if kind = 1 then logEvent 0x7010 [c, a, device] s
  else if kind = 2 then logEvent 0x7011 [c, a, source] s else s

/-- Reads a line under the decode its DIMM gives: the bytes and whether they are poisoned. What an
uncorrectable read delivers, and one whose error decodes to the poison syndrome, is a free value (assumption log 3). -/
def readLine (line : Nat) (d : LineDecode) (source : Nat) (s : State) : (List Byte × Bool) × State :=
  match d with
  | .uncorrectable =>
    let bs := (List.range 64).map (Config.freeByte s.freeNo)
    ((bs, true), noteDecode line 2 source 0 s.stepFree)
  | .syndrome =>
    if s.linePoisoned line then ((s.rawLine line, true), noteDecode line 3 source 0 s)
    else (((List.range 64).map (Config.freeByte s.freeNo), true), noteDecode line 3 source 0 s.stepFree)
  | .corrected device =>
    if s.linePoisoned line then ((s.rawLine line, true), noteDecode line 3 source 0 s)
    else ((s.rawLine line, false), noteDecode line 1 source device s)
  | .clean =>
    if s.linePoisoned line then ((s.rawLine line, true), noteDecode line 3 source 0 s)
    else ((s.rawLine line, false), s)

/-! ### The metadata cache and the tree (R447 to R449) -/

/-- What stops a metadata access: a tag mismatch at a level, an unreadable metadata line, an exhausted
counter. -/
inductive MetaFail where
  | mismatch (level addr : Nat)
  | unreadable (addr : Nat)
  | exhausted (level addr : Nat)
deriving DecidableEq, Repr

/-- Size in bytes of a region. -/
def MekRegion.size (m : MekRegion) : Nat := m.sizeGiB.toNat * giB

/-- The line number of counter line `i` of level `k`. -/
def MekRegion.ctrLine (m : MekRegion) (k i : Nat) : Nat := (m.metaBase.toNat + levelStart m.size k) / 64 + i

/-- A cached metadata line. -/
def State.cached (s : State) (line : Nat) : Option MetaLine :=
  (s.dram.cache.find? fun e => e.1 == line).map (·.2)

/-- Puts a metadata line in the cache. -/
def putCache (line : Nat) (bytes : List Byte) (dirty : Bool) (s : State) : State :=
  { s with dram.cache := SMap.ins s.dram.cache line { bytes, dirty } }

/-- Fetches a metadata line from DRAM. -/
def fetchMeta (line : Nat) (decs : List LineDecode) (s : State) :
    Except MetaFail (List Byte) × List LineDecode × State :=
  let ((bs, bad), s) := readLine line (decs.headD .clean) 2 s
  (if bad then .error (.unreadable (64 * line)) else .ok bs, decs.tail, s)

/-- A counter line of level `k` from the cache, or fetched and verified under the counter that `parent` finds (R448). -/
def ctrUnder (m : MekRegion) (k i : Nat) (decs : List LineDecode) (s : State)
    (parent : List LineDecode → State → Except MetaFail Nat × List LineDecode × State) :
    Except MetaFail (List Byte) × List LineDecode × State :=
  let line := m.ctrLine k i
  match s.cached line with
  | some c => (.ok c.bytes, decs, { s with dram.hits := satAdd s.dram.hits 1 })
  | none =>
    let s := { s with dram.misses := satAdd s.dram.misses 1 }
    match fetchMeta line decs s with
    | (.error e, decs, s) => (.error e, decs, s)
    | (.ok bs, decs, s) =>
      match parent decs s with
      | (.error e, decs, s) => (.error e, decs, s)
      | (.ok ctr, decs, s) =>
        if lineTag m.key line ctr (bs.take 56) = bs.drop 56 then (.ok bs, decs, putCache line bs false s)
        else (.error (.mismatch k (64 * line)), decs, s)

/-- Loads counter line `i` of level `k`, verified against its parent unless it is cached (R448). The first
argument bounds the levels above. -/
def loadCtr (r : Nat) (m : MekRegion) : Nat → Nat → Nat → List LineDecode → State →
    Except MetaFail (List Byte) × List LineDecode × State
  | 0, k, i, decs, s => ctrUnder m k i decs s fun decs s => (.ok (SMap.look 0 m.roots i).toNat, decs, s)
  | up + 1, k, i, decs, s => ctrUnder m k i decs s fun decs s =>
    match loadCtr r m up (k + 1) (i / 8) decs s with
    | (.error e, decs, s) => (.error e, decs, s)
    | (.ok p, decs, s) => (.ok (ctrSlot p (i % 8)), decs, s)

/-- The tag line of data line `j`, cached or fetched: its number and bytes. -/
def loadTag (m : MekRegion) (j : Nat) (decs : List LineDecode) (s : State) :
    Except MetaFail (Nat × List Byte) × List LineDecode × State :=
  let line := (m.metaBase.toNat + 8 * j) / 64
  match s.cached line with
  | some c => (.ok (line, c.bytes), decs, { s with dram.hits := satAdd s.dram.hits 1 })
  | none =>
    let s := { s with dram.misses := satAdd s.dram.misses 1 }
    match fetchMeta line decs s with
    | (.error e, decs, s) => (.error e, decs, s)
    | (.ok bs, decs, s) => (.ok (line, bs), decs, putCache line bs false s)

/-- What a failure does (T13.6); the grout status that answers the request. -/
def metaFail (r : Nat) (master : Nat) (f : MetaFail) (s : State) : BitVec 4 × State :=
  match f with
  | .mismatch level addr =>
    let s := { s with dram := { s.dram with
      alarm := setBit s.dram.alarm r true
      regions := SMap.upd {} s.dram.regions r fun m => { m with integ := satAdd m.integ 1 } } }
    (4, raiseAlarm 0 (logEvent 0x7110 [r, addr, level, master] s))
  | .unreadable addr =>
    (4, logEvent 0x7112 [r, addr] { s with dram.alarm := setBit s.dram.alarm (16 + r) true })
  | .exhausted level addr =>
    let s := { s with dram := { s.dram with
      alarm := setBit s.dram.alarm (8 + r) true
      regions := SMap.upd {} s.dram.regions r fun m => { m with state := .exhausted } } }
    (2, raiseAlarm 1 (logEvent 0x7102 [r, 3] (logEvent 0x7111 [r, addr, level] s)))

/-- Reads and checks a protected line (R448): plaintext and poison. -/
def protRead (r : Nat) (line : Nat) (d : LineDecode) (decs : List LineDecode) (source : Nat) (s : State) :
    Except MetaFail (List Byte × Bool) × List LineDecode × State :=
  let m := s.region r
  let j := line - m.baseGiB.toNat * giB / 64
  let ((c, bad), s) := readLine line d source s
  match loadTag m j decs s with
  | (.error e, decs, s) => (.error e, decs, s)
  | (.ok (_, tags), decs, s) =>
    match loadCtr r m (m.levels.toNat - 1) 0 (j / 8) decs s with
    | (.error e, decs, s) => (.error e, decs, s)
    | (.ok ctrs, decs, s) =>
      let ctr := ctrSlot ctrs (j % 8)
      if bad then (.ok (xtsDecrypt m.key line ctr c, true), decs, s)
      else if lineTag m.key line ctr c = slice tags (8 * (j % 8)) 8 then
        (.ok (xtsDecrypt m.key line ctr c, false), decs, s)
      else (.error (.mismatch 0xFF (64 * line)), decs, s)

/-- Writes a protected line whole (R448): the path is verified, the counter incremented in the cache, the
line encrypted under it and its tag put into the cached tag line. -/
def protWrite (r : Nat) (line : Nat) (p : List Byte) (poison : Bool) (decs : List LineDecode) (s : State) :
    Except MetaFail Unit × List LineDecode × State :=
  let m := s.region r
  let j := line - m.baseGiB.toNat * giB / 64
  match loadTag m j decs s with
  | (.error e, decs, s) => (.error e, decs, s)
  | (.ok (tline, _), decs, s) =>
    match loadCtr r m (m.levels.toNat - 1) 0 (j / 8) decs s with
    | (.error e, decs, s) => (.error e, decs, s)
    | (.ok ctrs, decs, s) =>
      let ctr := ctrSlot ctrs (j % 8) + 1
      if ctr ≥ 2 ^ 56 then (.error (.exhausted 0 (64 * line)), decs, s)
      else
        let c := xtsEncrypt m.key line ctr p
        let tags := match s.cached tline with | some t => t.bytes | none => []
        let s := putCache (m.ctrLine 0 (j / 8)) (putSlot ctrs (j % 8) ctr) true s
        let s := putCache tline (splice tags (8 * (j % 8)) (lineTag m.key line ctr c)) true s
        let s := { s with dram.regions := SMap.upd {} s.dram.regions r fun m =>
          { m with maxCtr := BitVec.ofNat 56 (max m.maxCtr.toNat ctr) } }
        (.ok (), decs, putLine line c poison s)

/-- A metadata line leaves the cache (R449): a dirty tag line is written back as it stands; a dirty counter
line increments its parent's counter and is written back with a fresh tag under it. -/
def evictLine (line : Nat) (s : State) : State :=
  match s.cached line, (List.range 8).find? fun r => (s.region r).carves (64 * line) with
  | some c, some r =>
    let m := s.region r
    let drop (s : State) : State := { s with dram.cache := SMap.del s.dram.cache line }
    if !c.dirty then drop s
    else
      match levelAt m.size (64 * line - m.metaBase.toNat) with
      | none => drop (putLine line c.bytes false s)
      | some (k, i) =>
        let top := m.levels.toNat - 1
        let back (ctr : Nat) (s : State) : State :=
          let body := c.bytes.take 56
          drop (putLine line (body ++ lineTag m.key line ctr body) false s)
        if k = top then
          let ctr := (SMap.look 0 m.roots i).toNat + 1
          if ctr ≥ 2 ^ 56 then (metaFail r 0 (.exhausted (k + 1) (64 * line)) s).2
          else back ctr { s with dram.regions := SMap.upd {} s.dram.regions r fun m =>
            { m with roots := SMap.put 0 m.roots i (BitVec.ofNat 56 ctr) } }
        else
          match loadCtr r m (top - (k + 1)) (k + 1) (i / 8) [] s with
          | (.error e, _, s) => (metaFail r 0 e s).2
          | (.ok p, _, s) =>
            let ctr := ctrSlot p (i % 8) + 1
            if ctr ≥ 2 ^ 56 then (metaFail r 0 (.exhausted (k + 1) (64 * line)) s).2
            else back ctr (putCache (m.ctrLine (k + 1) (i / 8)) (putSlot p (i % 8) ctr) true s)
  | _, _ => s

/-- The metadata cache is written back whole, lowest level first (T13.4). -/
def flushCache (s : State) : State :=
  let levelOf (line : Nat) : Nat :=
    match (List.range 8).find? fun r => (s.region r).carves (64 * line) with
    | none => 0
    | some r => match levelAt (s.region r).size (64 * line - (s.region r).metaBase.toNat) with
      | none => 0 | some (k, _) => k + 1
  let lines := s.dram.cache.map (·.1)
  (List.range 13).foldl (fun s k => (lines.filter fun l => levelOf l == k).foldl (fun s l => evictLine l s) s) s

/-! ### One request (R439, R448, T13.6) -/

/-- The lines a run of bytes touches. -/
def linesOf (a len : Nat) : List Nat := (List.range ((a + len - 1) / 64 - a / 64 + 1)).map (a / 64 + ·)

/-- The line's own part of the bytes written from `a` on: enables and data by byte of the line. -/
def linePart (line a : Nat) (ens : List Bool) (data : List Byte) : List (Option Byte) :=
  (List.range 64).map fun i =>
    let x := 64 * line + i
    if a ≤ x && nth false ens (x - a) then some (nth 0 data (x - a)) else none

/-- Merges enabled bytes. -/
def mergeLine (old : List Byte) (new : List (Option Byte)) : List Byte :=
  (new.zipIdx).map fun e => e.1.getD (nth 0 old e.2)

/-- Reads one line, in a region or in clear. -/
def lineRead (line : Nat) (d : LineDecode) (decs : List LineDecode) (source master : Nat) (s : State) :
    Except (BitVec 4) (List Byte × Bool) × List LineDecode × State :=
  match s.regionAt (64 * line) with
  | none => let (x, s) := readLine line d source s; (.ok x, decs, s)
  | some r =>
    if (s.region r).state != .active then (.error 2, decs, s)
    else match protRead r line d decs source s with
      | (.ok x, decs, s) => (.ok x, decs, s)
      | (.error e, decs, s) => let (st, s) := metaFail r master e s; (.error st, decs, s)

/-- Writes one line's enabled bytes (R439): all 64 without a read, otherwise read, merged and written. -/
def lineWrite (line : Nat) (new : List (Option Byte)) (poison : Bool) (d : LineDecode)
    (decs : List LineDecode) (master : Nat) (s : State) : Except (BitVec 4) Unit × List LineDecode × State :=
  let full := new.all (·.isSome)
  let (old, decs, s) : Except (BitVec 4) (List Byte × Bool) × List LineDecode × State :=
    if full then (.ok ([], false), decs, s) else lineRead line d decs 1 master s
  match old with
  | .error st => (.error st, decs, s)
  | .ok (bs, bad) =>
    let bytes := mergeLine bs new
    match s.regionAt (64 * line) with
    | none => (.ok (), decs, putLine line bytes (poison || bad) s)
    | some r =>
      if (s.region r).state != .active then (.error 2, decs, s)
      else match protWrite r line bytes (poison || bad) decs s with
        | (.ok _, decs, s) => (.ok (), decs, s)
        | (.error e, decs, s) => let (st, s) := metaFail r master e s; (.error st, decs, s)

/-- Reads the lines of a request. -/
def readLines (master : Nat) : List Nat → List LineDecode → List LineDecode → State →
    Except (BitVec 4) (List (List Byte × Bool)) × State
  | [], _, _, s => (.ok [], s)
  | l :: ls, ds, decs, s =>
    match lineRead l (ds.headD .clean) decs 0 master s with
    | (.error st, _, s) => (.error st, s)
    | (.ok x, decs, s) =>
      match readLines master ls ds.tail decs s with
      | (.error st, s) => (.error st, s)
      | (.ok xs, s) => (.ok (x :: xs), s)

/-- Writes the lines of a request; the first failure stops it and gives its status. -/
def writeLines (master a : Nat) (ens : List Bool) (data : List Byte) (poison : BitVec 4) :
    List Nat → List LineDecode → List LineDecode → State → BitVec 4 × State
  | [], _, _, s => (0, s)
  | l :: ls, ds, decs, s =>
    match lineWrite l (linePart l a ens data) (poison.getLsbD (l % 4)) (ds.headD .clean) decs master s with
    | (.error st, _, s) => (st, s)
    | (.ok _, decs, s) => writeLines master a ens data poison ls ds.tail decs s

/-- Reads `len` bytes of DRAM from `a`, within a 256-byte block: status, bytes and each one's poison. -/
def dramRead (master a len : Nat) (decs : List LineDecode) (s : State) : BitVec 4 × List (Byte × Bool) × State :=
  let ls := linesOf a len
  match readLines master ls (decs.take ls.length) (decs.drop ls.length) s with
  | (.error st, s) => (st, [], s)
  | (.ok xs, s) =>
    let all := (xs.map fun x => x.1.map fun b => (b, x.2)).flatten
    (0, (all.drop (a % 64)).take len, s)

/-- Writes the enabled bytes of DRAM from `a`: the status. -/
def dramWrite (master a : Nat) (ens : List Bool) (data : List Byte) (poison : BitVec 4)
    (decs : List LineDecode) (s : State) : BitVec 4 × State :=
  let ls := (linesOf a ens.length).filter fun l => (linePart l a ens data).any (·.isSome)
  writeLines master a ens data poison ls (decs.take ls.length) (decs.drop ls.length) s

/-! ### The port queues (R434, R435) -/

/-- The bank and row of an address. -/
def bankRow (a : Nat) : Nat × Nat := (Config.dramBank (a / 256), Config.dramRow (a / 256))

/-- A port's queue. -/
def State.queue (s : State) (p : Nat) : List DReq := SMap.look [] s.dram.queues p

/-- Writes a port's queue. -/
def State.setQueue (s : State) (p : Nat) (q : List DReq) : State :=
  { s with dram.queues := SMap.put [] s.dram.queues p q }

/-- An entry of the queue that puts its bank into in-order mode: a read marked so with an earlier write
to its row still queued (R435). -/
def inOrderBank (q : List DReq) (bank : Nat) : Bool :=
  (q.zipIdx).any fun e =>
    e.1.inOrder && (bankRow e.1.req.addr.toNat).1 == bank &&
    (q.take e.2).any fun w => w.req.op == .write && bankRow w.req.addr.toNat == bankRow e.1.req.addr.toNat

/-- Whether entry `i` may issue now: no earlier entry addresses its 256-byte block (one order per byte,
11 R383, 13 R434), and a bank in in-order mode issues its oldest entry only (R435). -/
def mayIssue (q : List DReq) (i : Nat) : Bool :=
  match q[i]? with
  | none => false
  | some d =>
    let a := d.req.addr.toNat
    !((q.take i).any fun w => w.req.addr.toNat / 256 == a / 256) &&
    (!inOrderBank q (bankRow a).1 || !((q.take i).any fun w => (bankRow w.req.addr.toNat).1 == (bankRow a).1))

/-- The answer a port gives without queueing: its channel trains, or is in self-refresh (R441, R455), or
the region's data is not in service (T13.6). -/
def State.dramRefusal (s : State) (p a : Nat) : Option (BitVec 4) :=
  if (s.chan (p / 2)).state != .trained then some 2
  else match s.regionAt a with
    | some r => if (s.region r).state == .active then none else some 2
    | none => none

/-- Room for the request: up to 64 reads and 64 writes (R434). -/
def queueRoom (q : List DReq) (op : GOp) : Bool := (q.filter fun d => d.req.op == op).length < 64

/-- A port accepts a request (R434): a write in clear is answered now, one into a region when its path has
verified (T13.6; assumption log 14). -/
def dramAccept (p : Nat) (r : GReq) (s : State) : State :=
  let a := r.addr.toNat
  match s.dramRefusal p a with
  | some st => answer r st [] 0 s
  | none =>
    let q := s.queue p
    if !queueRoom q r.op then s
    else if r.op == .write then
      let clear := (s.regionAt a).isNone
      let s := s.setQueue p (q ++ [{ req := r, answered := clear, inOrder := false }])
      if clear then answer r 0 [] 0 s else s
    else
      let hit := q.any fun w => w.req.op == .write && bankRow w.req.addr.toNat == bankRow a
      let enters := hit && !inOrderBank q (bankRow a).1
      let s := s.setQueue p (q ++ [{ req := r, answered := false, inOrder := enters }])
      if enters then s.setChan (p / 2) fun c => { c with inorder := satAdd c.inorder 1 } else s

/-- Performs one request and answers it where it is not answered yet. -/
def performDram (d : DReq) (decs : List LineDecode) (s : State) : State :=
  let r := d.req
  let a := r.addr.toNat
  match r.op with
  | .read =>
    let (st, bs, s) := dramRead r.master.toNat a (r.len.toNat + 1) decs s
    answer r st (bs.map (·.1)) (unitPoison a (bs.map (·.2))) s
  | .write =>
    let (st, s) := dramWrite r.master.toNat a (byteEnables r) r.data r.poison decs s
    if d.answered then s else answer r st [] 0 s

/-- Entry `i` of a port's queue issues; `evict` is the metadata line that leaves the cache for what it
brings in. -/
def dramIssueAt (p i : Nat) (decs : List LineDecode) (evict : Nat) (s : State) : State :=
  let q := s.queue p
  if !mayIssue q i then s
  else match q[i]? with
    | none => s
    | some d => evictLine evict (performDram d decs (s.setQueue p (q.eraseIdx i)))

/-- Every queued request of a port completes, in arrival order (R441). -/
def drainPort (p : Nat) (s : State) : State :=
  (s.queue p).foldl (fun s d => performDram d [] s) (s.setQueue p [])

/-- Every port's queue completes. -/
def drainDram (s : State) : State := (List.range 16).foldl (fun s p => drainPort p s) s

/-! ### Training (R429 to R431) -/

/-- A channel's DIMMs. -/
def State.dimmsOf (s : State) (c : Nat) : Dimms := SMap.look {} s.part.dimms c

/-- The installed size (R429): 8 times the smallest channel, 0 unless all eight are trained. -/
def installedSize (s : State) : Nat :=
  let ok := (List.range 8).all fun c => (s.chan c).state == .trained || (s.chan c).state == .selfRefresh
  if ok then 8 * ((List.range 8).map fun c => (s.chan c).capGiB.toNat).foldl min 65535 * giB else 0

/-- Recomputes the installed size. -/
def setInstalled (s : State) : State := { s with dram.installed := BitVec.ofNat 64 (installedSize s) }

/-- A channel trains with patterns: its contents are undefined (R431). -/
def loseContents (c : Nat) (s : State) : State :=
  let d := s.dram
  { s with dram := { d with
      mem := d.mem.filter (fun e => bitsAt e.1 8 3 != c), poisoned := d.poisoned.filter (fun e => bitsAt e.1 2 3 != c)
      epoch := d.epoch + 1, written := SMap.put 0 d.written c (d.epoch + 1) } }

/-- The speeds of Table 13.1 for an arrangement of DIMMs, the highest first; none: it is not supported. -/
def Dimms.speeds (d : Dimms) : List Nat :=
  if d.mrdimm then (if d.count = 1 && !d.x8 then [8800, 8000] else [])
  else if d.count = 1 then [6400, 5600, 4800]
  else if d.count = 2 then [5600, 4800] else []

/-- The highest speed of the arrangement at or below a limit. -/
def Dimms.speedUnder (d : Dimms) (cap : Nat) : Option Nat := d.speeds.find? (· ≤ cap)

/-- The outcome of one channel's training (R431, R437). -/
def trainedChan (t : ChanTrain) (s : State) : State :=
  let c := t.chan.val
  let d := s.dimmsOf c
  if t.cause = 0 then
    let s := s.setChan c fun x => { x with state := .trained, cause := 0, mts := t.mts, capGiB := t.capGiB, offset := 0 }
    let s := logEvent 0x7001 [c, if d.mrdimm then 2 else 1, d.count, t.mts.toNat, t.capGiB.toNat] s
    if d.rfm then (List.range d.count).foldl (fun s i => logEvent 0x7003 [c, i] s) s else s
  else
    logEvent 0x7002 [c, t.cause.toNat] (s.setChan c fun x => { x with state := .failed, cause := t.cause })

/-! ### Registers (T13.7 to T13.11) -/

/-- Codes of T13.8. -/
def ChanState.code : ChanState → Nat
  | .empty => 0 | .training => 1 | .trained => 2 | .failed => 3 | .selfRefresh => 4

/-- Codes of T13.11. -/
def RegState.code : RegState → Nat
  | .off => 0 | .initialising => 1 | .active => 2 | .exhausted => 3 | .keyless => 4

/-- DRC_CH_STATE_c: the SPD's facts once the channel has been trained or has failed. -/
def State.chanWord (s : State) (c : Nat) : Nat :=
  let x := s.chan c
  let d := s.dimmsOf c
  if x.state == .empty then 0
  else
    x.mts.toNat + (if d.mrdimm then 2 else 1) * 2 ^ 16 + d.count * 2 ^ 18 + b2n d.x8 * 2 ^ 20 + b2n d.rfm * 2 ^ 21 +
    x.cause.toNat * 2 ^ 24 + x.state.code * 2 ^ 28

/-- DRC_SUMMARY. -/
def State.drcSummary (s : State) : Nat :=
  let m (f : ChanState → Bool) : Nat := bitsNat ((List.range 8).map fun c => f (s.chan c).state)
  m (fun x => x == .trained || x == .selfRefresh) + 256 * m (· == .training) + 65536 * m (· == .failed)

/-- The ten words of a channel, in register order. -/
def State.drcWord (s : State) (c i : Nat) : Nat :=
  let x := s.chan c
  match i with
  | 0 => s.chanWord c
  | 1 => x.capGiB.toNat
  | 2 => x.code0.toNat + x.code1.toNat * 2 ^ 8 + b2n x.halved0 * 2 ^ 16 + b2n x.halved1 * 2 ^ 17
  | 3 => x.ce.toNat
  | 4 => x.ue.toNat
  | 5 => x.poison.toNat
  | 6 => x.lastErr.toNat % 2 ^ 32
  | 7 => x.lastErr.toNat / 2 ^ 32
  | 8 => x.inorder.toNat
  | 9 => x.recentre.toNat + b2n x.recentreHeld * 2 ^ 31
  | _ => 0

/-- Reads a register of the DRC block. -/
def State.readDrc (s : State) (off : Nat) : Nat :=
  if off = 0 then s.dram.installed.toNat % 2 ^ 32
  else if off = 4 then s.dram.installed.toNat / 2 ^ 32
  else if off = 8 then s.drcSummary
  else if 0x100 ≤ off && off < 0x300 then s.drcWord ((off - 0x100) / 64) (off % 64 / 4)
  else 0

/-- MEK_STATE. -/
def State.mekState (s : State) : Nat :=
  let m (f : RegState → Bool) : Nat := bitsNat ((List.range 8).map fun r => f (s.region r).state)
  m (· == .active) + 256 * m (· == .initialising) + 65536 * m fun x => x == .exhausted || x == .keyless

/-- MEK_CTL_r. -/
def MekRegion.ctl (m : MekRegion) : Nat :=
  if m.state == .off then 0
  else m.rootUsed.toNat + b2n m.random * 2 ^ 16 + m.levels.toNat * 2 ^ 24 + m.state.code * 2 ^ 28

/-- The ten words of a region, in register order. -/
def State.mekWord (s : State) (r i : Nat) : Nat :=
  let m := s.region r
  match i with
  | 0 => m.ctl
  | 1 => m.baseGiB.toNat
  | 2 => m.sizeGiB.toNat
  | 3 => m.metaBase.toNat % 2 ^ 32
  | 4 => m.metaBase.toNat / 2 ^ 32
  | 5 => m.metaLen.toNat % 2 ^ 32
  | 6 => m.metaLen.toNat / 2 ^ 32
  | 7 => m.integ.toNat
  | 8 => m.maxCtr.toNat % 2 ^ 32
  | 9 => m.maxCtr.toNat / 2 ^ 32
  | _ => 0

/-- Reads a register of the MEK block. -/
def State.readMek (s : State) (off : Nat) : Nat :=
  if off = 0 then s.mekState
  else if off = 4 then s.dram.alarm.toNat
  else if off = 8 then s.dram.hits.toNat
  else if off = 12 then s.dram.misses.toNat
  else if 0x100 ≤ off && off < 0x300 then s.mekWord ((off - 0x100) / 64) (off % 64 / 4)
  else 0

end Sys2Proof.Machine
end

