-- ==== Sys2Proof/Machine/RegOps.lean ====
section
/-!
DEFINITION. A grout request on registers (00 R600): the aligned words it touches, in rising order, each read
or written under its own access code; and the accesses of an engine's window (11 R375, R377).
-/
namespace Sys2Proof.Machine
open Sys2Proof

/-! ### Words of a request (00 R600) -/

/-- The aligned words that `n` bytes from offset `off` touch, in rising order. -/
def wordsAt (off n : Nat) : List Nat := (List.range ((off + n - 1) / 4 - off / 4 + 1)).map fun i => 4 * (off / 4 + i)

/-- Reads every word touched and answers the requested bytes of them. -/
def readWords (rd : Nat → State → W32 × State) (off n : Nat) (s : State) : List Byte × State :=
  let (bs, s) := (wordsAt off n).foldl (fun (acc : List Byte × State) w =>
    let (v, s) := rd w acc.2
    (acc.1 ++ leBytes 4 v.toNat, s)) ([], s)
  ((bs.drop (off % 4)).take n, s)

/-- The words of a write whose four byte enables are all 1, with their values. -/
def wordsWritten (off : Nat) (ens : List Bool) (data : List Byte) : List (Nat × W32) :=
  ((wordsAt off ens.length).filter fun w =>
    off ≤ w && (List.range 4).all fun i => nth false ens (w + i - off)).map fun w =>
      (w, BitVec.ofNat 32 (leNat (slice data (w - off) 4)))

/-- Writes each word whose four byte enables are all 1; any other stays as it is. -/
def writeWords (wr : Nat → W32 → State → State) (off : Nat) (ens : List Bool) (data : List Byte) (s : State) : State :=
  (wordsWritten off ens data).foldl (fun s w => wr w.1 w.2 s) s

/-! ### The engine window (11 R375, R377, R397) -/

/-- The engine of a window address, and the offset in its window. -/
def windowOf (a : Nat) : Nat × Nat := (bitsAt a 20 8, a % 2 ^ 20)

/-- The bytes of a request with the poison of their 64-byte unit. -/
def reqBytes (r : GReq) : List (Bool × Byte × Bool) :=
  (List.range (r.len.toNat + 1)).map fun i =>
    (r.byteEn.getLsbD (r.addr.toNat % 256 + i), nth 0 r.data i, r.poison.getLsbD ((r.addr.toNat % 256 + i) / 64))

/-- Stores the enabled bytes of a request in engine `e`'s memories from offset `o` on. -/
def storeEng (e : Nat) : Nat → List (Bool × Byte × Bool) → State → State
  | _, [], s => s
  | o, (en, v, p) :: rest, s => storeEng e (o + 1) rest (if en then engWrite e o [(v, p)] s else s)

/-- Performs a request in an engine's window: its status, data and poison. -/
def engWindow (r : GReq) (s : State) : (BitVec 4 × List Byte × BitVec 4) × State :=
  let (e, o) := windowOf r.addr.toNat
  let n := r.len.toNat + 1
  if o < 0x60000 then
    match r.op with
    | .read =>
      let (bs, s) := engRead e o n s
      ((0, bs.map (·.1), unitPoison r.addr.toNat (bs.map (·.2))), s)
    | .write => ((0, [], 0), storeEng e o (reqBytes r) s)
  else if 0xF0000 ≤ o then
    match r.op with
    | .read =>
      let (bs, s) := readWords (readEngWord e) (o - 0xF0000) n s
      ((0, bs, 0), s)
    | .write => ((0, [], 0), writeWords (writeEngReg e) (o - 0xF0000) (byteEnables r) r.data s)
  else ((5, [], 0), s)

end Sys2Proof.Machine
end

