-- ==== Sys2Proof/Machine/EvrOps.lean ====
section
/-!
DEFINITION. The log store of the event recorder (17 R560 to R570): programming, page erasure, retirement and
wear exchange, rate summaries, clearing, reading, and the EVR block's registers.
-/
namespace Sys2Proof.Machine
open Sys2Proof

/-! ### Records (R560, R561) -/

/-- A stored record as a read returns it. -/
def StoredRec.bytes (r : StoredRec) : List Byte :=
  leBytes 2 r.entry.code.toNat ++ leBytes 1 (r.entry.size / 8) ++ leBytes 1 0 ++ leBytes 4 r.seq.toNat ++
  leBytes 8 r.entry.time ++ (r.entry.slots.map fun v => leBytes 8 v.toNat).flatten

/-- A page. -/
def Evr.page (e : Evr) (n : Nat) : Page := SMap.look {} e.pages n

/-- Writes a page. -/
def Evr.setPage (e : Evr) (n : Nat) (f : Page → Page) : Evr := { e with pages := SMap.upd {} e.pages n f }

/-- The newest page. -/
def Evr.newest (e : Evr) : Nat := e.ring.getLastD 0

/-- The valid records of the log, oldest first. -/
def Evr.records (e : Evr) : List StoredRec :=
  (e.ring.map fun n => (e.page n).recs.filter fun r => !r.torn).flatten

/-- The head: the newest valid record; before the first, one below the next number (R562). -/
def Evr.head (e : Evr) : W32 :=
  match e.clearing with | some (h, _) => h | none => e.nextSeq - 1

/-- The tail: the oldest record stored; with none stored, head + 1. -/
def Evr.tail (e : Evr) : W32 :=
  match e.clearing with
  | some (h, _) => h + 1
  | none => match e.records with | [] => e.nextSeq | r :: _ => r.seq

/-! ### Pages (R563, R569, R570) -/

/-- A page as an erase leaves it. -/
def Page.erased (p : Page) : Page := { erases := p.erases + 1 }

/-- Erases a page: one erase of the store. -/
def Evr.erase (e : Evr) (n : Nat) : Evr := { e.setPage n Page.erased with eraseCount := e.eraseCount + 1 }

/-- Logs an event of the recorder itself at time `now`; classes 0x9xxx and 0xFxxx have no bucket (R566). -/
def Evr.note (e : Evr) (now code : Nat) (slots : List Nat) : Evr :=
  e.push { code := BitVec.ofNat 16 code, slots := slots.map (BitVec.ofNat 64), time := now }

/-- A page leaves service: counted and logged with the spares left. -/
def Evr.retire (e : Evr) (now n spares : Nat) : Evr :=
  { e with retired := e.retired + 1 }.note now 0x9004 [n, (e.page n).erases, spares]

/-- The first spare fit for use; a spare marked worn is retired at the erase that would take it (R569). -/
def takeSpare (now : Nat) : List Nat → Evr → Option Nat × Evr
  | [], e => (none, { e with spares := [] })
  | p :: ps, e =>
    if (e.page p).worn then takeSpare now ps (e.retire now p ps.length)
    else (some p, { e with spares := ps })

/-- Writes a record on the newest page. -/
def Evr.store (e : Evr) (r : Rec) (torn : Bool) : Evr :=
  let s : StoredRec := { seq := e.nextSeq, entry := r, torn := torn }
  let e' := e.setPage e.newest fun p =>
    { p with recs := p.recs ++ [s], used := p.used + r.size, firstSeq := if p.recs.isEmpty then e.nextSeq else p.firstSeq }
  if torn then e' else { e' with nextSeq := e.nextSeq + 1 }

/-- No spare is left for a retirement: the log becomes read-only; LOG_READONLY goes on the newest page where
it fits and is not the page `worn`. Records still pending are lost (R570). -/
def Evr.close (e : Evr) (now worn : Nat) : Evr :=
  let r : Rec := { code := 0x9005, slots := [e.retired.zeroExtend 64], time := now }
  let e := if e.newest ≠ worn && (e.page e.newest).used + r.size ≤ 4096 then e.store r false else e
  { e with readonly := true, lost := satAdd e.lost e.pending.length, pending := [] }

/-- The oldest ring page is erased and becomes the newest; a worn one is retired and a spare takes its place
(R563, R569). -/
def Evr.rollPage (e : Evr) (now : Nat) : Evr :=
  match e.ring with
  | [] => e
  | old :: rest =>
    if !(e.page old).worn then { e with ring := rest ++ [old] }.erase old
    else match takeSpare now e.spares e with
      | (none, e) => e.close now old
      | (some p, e) => { e.retire now old e.spares.length with ring := rest ++ [p] }.erase p

/-- A record of `size` bytes fits on the newest page. -/
def Evr.fits (e : Evr) (size : Nat) : Bool := decide ((e.page e.newest).used + size ≤ 4096)

/-- The oldest pending record is programmed: `pulses` of them, and whether it verified (R561, R569). A record
that failed to verify is left torn, its page takes no more, and it is written again on the next page. -/
def Evr.program (e : Evr) (now pulses : Nat) (verified : Bool) : Evr :=
  if e.readonly || e.clearing.isSome then e
  else match e.pending with
    | [] => e
    | r :: _ =>
      let e := if e.fits r.size then e else e.rollPage now
      if e.readonly then e
      else
        let n := e.newest
        let slow := 4 < pulses && !(e.page n).slow
        let e := e.store r (!verified)
        let e := e.setPage n fun p =>
          { p with slow := p.slow || 4 < pulses, worn := p.worn || 12 < pulses || !verified
                   used := if verified then p.used else 4096 }
        let e := if verified then { e with pending := e.pending.drop 1 } else e
        if slow then e.note now 0x9003 [n, pulses] else e

/-- Programs every pending record, each at its first pulse (15 R511, 17 R564): `n` of them at most. -/
def Evr.programAll (now : Nat) : Nat → Evr → Evr
  | 0, e => e
  | n + 1, e => Evr.programAll now n (e.program now 1 true)

/-- The pages an exchange concerns: the most-worn ring page other than the newest and the least-worn spare,
where their erase counts lie at least 1,000 apart and the store has been erased 4,096 times (R569). -/
def Evr.exchange? (e : Evr) : Option (Nat × Nat) :=
  let worst := (e.ring.dropLast).foldl (fun (b : Option Nat) n =>
    match b with | none => some n | some m => if (e.page m).erases < (e.page n).erases then some n else some m) none
  let best := e.spares.foldl (fun (b : Option Nat) n =>
    match b with | none => some n | some m => if (e.page n).erases < (e.page m).erases then some n else some m) none
  match worst, best with
  | some w, some p =>
    if 4096 ≤ e.eraseCount && (e.page p).erases + 1000 ≤ (e.page w).erases then some (w, p) else none
  | _, _ => none

/-- The spare is erased, takes every valid record of the worn page and its place in the ring; the worn page
becomes a spare without an erase (R569). A spare marked worn is retired instead. -/
def Evr.exchange (e : Evr) (now : Nat) : Evr :=
  match e.exchange? with
  | none => e
  | some (w, p) =>
    let left := e.spares.filter (· != p)
    if (e.page p).worn then { e.retire now p left.length with spares := left }
    else
      let recs := (e.page w).recs.filter fun r => !r.torn
      let e := (e.erase p).setPage p fun x =>
        { x with recs := recs, firstSeq := (e.page w).firstSeq, used := 32 + (recs.map fun r => r.entry.size).sum }
      let e := { e with ring := e.ring.map fun n => if n = w then p else n
                        spares := left ++ [w], eraseCount := 0 }
      e.note now 0x9008 [w, p, (e.page w).erases, (e.page p).erases]

/-! ### Rate limits (R566, R567) -/

/-- The device time at which a code's suppressed count is due to be summarised. -/
def Bucket.dueAt (b : Bucket) : Nat :=
  min (if b.rate = 0 then b.firstAt + 10 * ticksPerS else b.at_ + ceilDiv (b.burst * ticksPerS - b.level) b.rate)
    (b.firstAt + 10 * ticksPerS)

/-- RATE_SUMMARY for a code at time `now`; it takes no token and the count restarts (R567). -/
def Evr.summarise (e : Evr) (now code : Nat) : Evr :=
  let b := SMap.look {} e.buckets code
  if b.suppressed = 0 then e
  else
    let b' := { b with suppressed := 0, firstAt := 0, lastAt := 0 }
    ({ e with buckets := SMap.put {} e.buckets code b' } : Evr).note
      now 0x9002 [code, b.suppressed, b.firstAt, b.lastAt]

/-- The limit of a code has changed (R566): its bucket keeps its level clipped to the new burst; without a
limit its count is summarised at once and the bucket goes. -/
def Evr.relimit (e : Evr) (now code : Nat) : Evr :=
  match e.limitOf code with
  | none =>
    let e := e.summarise now code
    { e with buckets := SMap.put {} e.buckets code {} }
  | some (rate, burst) =>
    let b := SMap.look {} e.buckets code
    if b.burst = 0 then e
    else
      let b := b.refill b.rate b.burst now
      let b' := { b with rate := rate, burst := burst, level := min b.level (burst * ticksPerS) }
      { e with buckets := SMap.put {} e.buckets code b' }

/-! ### Clearing (R568) -/

/-- EVR_CLEAR is accepted: the old records leave the log at once, every ring page is erased. -/
def Evr.startClear (e : Evr) : Evr :=
  let h := e.head
  let t := e.tail
  let e := e.ring.foldl (fun e n => e.erase n) e
  { e with clearing := some (h, t) }

/-- The clear ends: LOG_CLEARED is the first record of the new log, on the next page in turn. -/
def Evr.endClear (e : Evr) (now port source slot : Nat) : Evr :=
  match e.clearing with
  | none => e
  | some (h, t) =>
    let r : Rec := { code := 0x9001, slots := [h.toNat, t.toNat, port, source, slot].map (BitVec.ofNat 64), time := now }
    { e with clearing := none, ring := e.ring.drop 1 ++ e.ring.take 1 }.store r false

/-! ### Reading (R565, R579) -/

/-- `a` lies before `b`, modulo 2^32 (R562). -/
def seqBefore (a b : W32) : Bool := (a - b).msb

/-- The records of a read: from `start`, matching the filter, whole, within `max` bytes. -/
def takeFitting : Nat → List StoredRec → List StoredRec
  | _, [] => []
  | room, r :: rs => if r.entry.size ≤ room then r :: takeFitting (room - r.entry.size) rs else []

/-- What EVR_READ returns. -/
def Evr.read (e : Evr) (start : W32) (max : Nat) (code mask : BitVec 16) : List Byte :=
  let rs := if e.clearing.isSome then [] else
    e.records.filter fun r => !seqBefore r.seq start && (r.entry.code &&& mask) == (code &&& mask)
  let rs := takeFitting max rs
  leBytes 4 e.head.toNat ++ leBytes 4 e.head.toNat ++ leBytes 4 e.tail.toNat ++ leBytes 4 rs.length ++
  (rs.map StoredRec.bytes).flatten

/-! ### The EVR block (T17.4, T17.5) -/

/-- EVR_STATE. -/
def Evr.stateWord (e : Evr) : Nat :=
  e.overrides.length + e.spares.length * 2 ^ 8 + e.retired.toNat * 2 ^ 16 + b2n e.clearing.isSome * 2 ^ 30 +
  b2n e.readonly * 2 ^ 31

/-- EVR_MAX_ERASE. -/
def Evr.maxErase (e : Evr) : Nat := (e.ring.map fun n => (e.page n).erases).foldl max 0

/-- Reads a register of the EVR block. -/
def State.readEvr (s : State) (off : Nat) : Nat :=
  let e := s.evr
  match off with
  | 0x00 => e.stateWord
  | 0x04 => e.head.toNat
  | 0x08 => e.tail.toNat
  | 0x0C => e.lost.toNat
  | 0x10 => e.suppressed.toNat
  | 0x14 => e.maxErase
  | _ => 0

end Sys2Proof.Machine
end

