-- ==== Sys2Proof/Machine/SvpOps.lean ====
section
/-!
DEFINITION. The service crossbar (18 R583 to R589, R596): pin registers, input signals, sleep states, the
supply VIO_SVC, and the SVP block.
-/
namespace Sys2Proof.Machine
open Sys2Proof

/-! ### Pin registers (T18.11) -/

/-- The writable bits of SVP_PIN_i. -/
def pinMask : W32 := 0xEFC000FF

/-- sleep_in_hold. -/
def Svp.sleepsInHold (v : Svp) (i : Nat) : Bool := (v.pin i).getLsbD 29

/-! ### Sleep states (R587) -/

/-- The sleep state of pin `i` applies. -/
def State.pinSleeps (s : State) (i : Nat) : Bool :=
  s.svp.sleeping && (s.power.phase == .dormant || s.svp.sleepsInHold i)

/-- The pull of a pin. -/
def Svp.pull (v : Svp) (i : Nat) : Nat := bitsAt (v.pin i).toNat 26 2

/-- The output of a pin whose sleep state applies. -/
def Svp.sleepDrive (v : Svp) (i : Nat) : PinOut :=
  match bitsAt (v.pin i).toNat 30 2 with
  | 0 => .driven false
  | 1 => .driven true
  | 2 => .hiZ (v.pull i)
  | _ => .driven (SMap.look false v.heldLevel i)

/-! ### Output signals (R583, R585; 02 R63) -/

/-- The enable bit of the block that a signal belongs to (15 T15.13); none: it cannot be gated. -/
def gateBit (c : Nat) : Option Nat :=
  if c < 0x20 then some (c / 8)
  else if c < 0x28 then some (4 + (c - 0x20) / 2)
  else if c < 0x68 then some (8 + (c - 0x28) / 16)
  else if c < 0x6E then some 12
  else if c < 0x8E then some 13
  else if c < 0x96 then some 14
  else if c = 0xD9 then some 15 else none

/-- SPIS_ALERT (02 R63): a notification on port 4 has not been read. -/
def State.spisAlert (s : State) : Bool :=
  let sp := s.space 4 0
  (sp.current.toList ++ sp.waiting).any (·.notification)

/-- SPIS_RDY (R583): port 4 is ready to accept a packet. -/
def State.spisRdy (s : State) : Bool :=
  s.intake.opened && s.svp.vioPresent && s.clk.gate.getLsbD 12 && !(s.space 4 0).reqBusy

/-- What a block of the part drives on a signal: nothing, or a level. What the UARTs, the I3C and SPI controllers, the GPIO, the
PWM, MISO and a running CLKOUT drive at one instant is a free value (assumption log 3). -/
def State.blockOut (s : State) (c : Nat) : PinOut :=
  let free (i : Nat) : Bool := (Config.freeByte s.freeNo c).getLsbD i
  let out := (c < 0x20 && (c % 8 = 0 || c % 8 = 2 || c % 8 = 4)) || (0x28 ≤ c && c < 0x68 && ((c - 0x28) % 16 = 0 || 10 ≤ (c - 0x28) % 16)) ||
    c = 0x6B || (0x8E ≤ c && c < 0x96)
  let both := (0x20 ≤ c && c < 0x28) || (0x28 ≤ c && c < 0x68 && 2 ≤ (c - 0x28) % 16 && (c - 0x28) % 16 < 10) || (0x6E ≤ c && c < 0x8E)
  if c = 0x6C then .driven s.spisAlert
  else if c = 0x6D then .driven s.spisRdy
  else if 0x96 ≤ c && c < 0xD6 then
    let k : Fin 64 := Fin.ofNat 64 (c - 0x96)
    if s.fxNet k true then .driven (s.fxNet k false) else .hiZ 0
  else if c = 0xD8 then .driven (s.cap.trigOutAt ≠ 0 && decide (s.time < s.cap.trigOutAt + 1))
  else if c = 0xD9 then .driven (s.clk.outSrc ≠ 0xFF && free 0)
  else if out then .driven (free 0)
  else if both then (if free 1 then .driven (free 0) else .hiZ 0)
  else .hiZ 0

/-- What a signal drives at the crossbar: a gated block's outputs hold the levels they had (15 R522). -/
def State.sigOut (s : State) (c : Nat) : PinOut :=
  match gateBit c with
  | some b =>
    if s.clk.gate.getLsbD b then s.blockOut c
    else (match s.blockOut c with
      | .driven _ => .driven (SMap.look false s.svp.gatedOut c)
      | o => o)
  | none => s.blockOut c

/-- What service pin `i` drives (R583, R587, R588; 16 R542): an open-drain pin only low. -/
def State.svcOut (s : State) (i : Nat) : PinOut :=
  if !s.svp.vioPresent then .hiZ 0
  else if s.dbg.testActive then s.testOut (4608 + 3 * i + 1) (4608 + 3 * i + 2)
  else if s.pinSleeps i then s.svp.sleepDrive i
  else match s.sigOut (s.svp.sel i) with
    | .driven v => if v && (s.svp.pin i).getLsbD 22 then .hiZ (s.svp.pull i) else .driven v
    | .hiZ _ => .hiZ (s.svp.pull i)

/-- The level of service pin `i`: what the part drives, or else what the board gives it. -/
def State.svcLevel (s : State) (i : Nat) : Bool :=
  match s.svcOut i with | .driven v => v | .hiZ _ => SMap.look false s.svp.levels i

/-- The sleep states begin for the pins `on` holds: each remembers its level. -/
def svcSleep (on : Nat → Bool) (s : State) : State :=
  { s with svp := { s.svp with
      sleeping := (List.range 96).any on
      heldLevel := ((List.range 96).filter fun i => on i && s.svcLevel i).map fun i => (i, true) } }

/-- The sleep states end: recorded selections take effect. -/
def Svp.awake (v : Svp) : Svp :=
  let w := v.deferred.foldl (fun (w : Svp) e =>
    w.setPin e.1 ((w.pin e.1 &&& 0xFFFFFF00) ||| BitVec.ofNat 32 (e.2.toNat % 256))) v
  { w with sleeping := false, deferred := [], heldLevel := [] }

/-- The pins of port 4's signals (SPI service slave) as selected. -/
def Svp.spiPins (v : Svp) : List (Option Nat) := (List.range 4).map fun i => v.pinOf (0x68 + i)

/-- A write of SVP_PIN_i (R586, R587): during the pin's sleep state a new sel waits for its end. A packet of
port 4 that the write breaks is discarded (02 R43). -/
def writePin (i : Nat) (w : W32) (s : State) : State :=
  let w := w &&& pinMask
  let v := s.svp
  let v' := if s.pinSleeps i then
      let old := v.pin i
      { v.setPin i ((w &&& 0xFFFFFF00) ||| (old &&& 0xFF)) with
        deferred := SMap.ins v.deferred i (w.truncate 8) }
    else v.setPin i w
  let s' := { s with svp := v' }
  if v'.spiPins = v.spiPins then s' else dropPartial 4 s'

/-! ### The SVP block (T18.10) -/

/-- SVP_STATE. -/
def Svp.stateWord (v : Svp) : Nat := b2n v.sleeping * 2 ^ 29 + b2n v.vio33 * 2 ^ 30 + b2n v.vioPresent * 2 ^ 31

/-- Reads a register of the SVP block. -/
def State.readSvp (s : State) (off : Nat) : Nat :=
  if off = 0 then s.svp.stateWord
  else if 0x100 ≤ off && off < 0x280 then (s.svp.pin ((off - 0x100) / 4)).toNat
  else if 0x300 ≤ off && off < 0x30C then
    bitsNat ((List.range 32).map fun b => s.svcLevel (32 * ((off - 0x300) / 4) + b))
  else 0

end Sys2Proof.Machine
end

