-- ==== Sys2Proof/Machine/PowerOps.lean ====
section
/-!
DEFINITION. Power, clocks and reset (15): the start of the part with its straps, fills and training (01 R15
to R19, 05 R171, 04 R115, 01 R29), what survives each reset (T15.8), Hold and Dormant (R510 to R512), the
source switch (R520), the limits, and the PWR and CLK blocks.
-/
namespace Sys2Proof.Machine
open Sys2Proof

/-! ### Straps (01 R14 to R19) -/

/-- The valid strap word of die `i` (0-7 B, 8-15 C, 16-23 L, 24 H). -/
def validStrap (guestVariant : Bool) (i : Nat) : Byte :=
  if i = 24 then (if guestVariant then 0x10 else 0)
  else BitVec.ofNat 8 (i % 8 + if i % 8 < 4 then 0 else 8)

/-- The word die `i` reads. -/
def Part.strapOf (p : Part) (i : Nat) : Byte := SMap.look (validStrap p.guestVariant i) p.strapWiring i

/-- A die reads the same position as another of its kind. -/
def Part.strapDuplicate (p : Part) (i : Nat) : Bool :=
  (List.range 8).any fun j => 8 * (i / 8) + j != i && (p.strapOf (8 * (i / 8) + j) &&& 7) == (p.strapOf i &&& 7)

/-- The record of die `i` as the straps make it, R17 to R19. The bit for a stack partner is set only on a die that has no
strap fault of its own; of a pair of dies that are both faulty the spec does not say (DESIGN CHOICE, assumption log 75). -/
def Part.dieAtStart (p : Part) (i : Nat) : Die :=
  let bad (j : Nat) : Bool := p.strapOf j != validStrap p.guestVariant j || p.strapDuplicate j
  if i = 24 then { state := .running, invalid := p.strapOf 24 != validStrap p.guestVariant 24 }
  else if i = 25 then
    if !p.guestVariant then { state := .absent }
    else if !bitAt (p.strapOf 24).toNat 4 then { state := .reset, held := true }
    else if p.guestTrains then {} else { state := .reset, held := true }
  else
    let partner := if i < 8 then i + 8 else i - 8
    let stack := i < 16 && bad partner && !bad i
    { state := if bad i || stack then .reset else .running, held := bad i || stack
      invalid := p.strapOf i != validStrap p.guestVariant i, duplicate := p.strapDuplicate i, partner := stack }

/-- The kind and index of die `i` (01 T1.15). -/
def dieKind (i : Nat) : Nat × Nat := if i < 24 then (i / 8, i % 8) else if i = 24 then (3, 0) else (4, 0)

/-- The straps are sampled (R15): every die takes its place or is held, and what is wrong is logged. A die whose word is both
invalid and a duplicate logs 0x3001 and then 0x3002, and the dies log in the order of their indices; R17 does not say
(DESIGN CHOICE, assumption logs 70 and 75). In the return state a start logs nothing (17 R574). -/
def sampleStraps (s : State) : State :=
  let p := s.part
  let dies := (List.range 26).map fun i => (i, p.dieAtStart i)
  let dev : Dev :=
    { strap := (List.range 25).map p.strapOf, dies := dies.filter fun e => e.2 != {}
      role := p.guestVariant && bitAt (p.strapOf 24).toNat 4
      hubFault := p.strapOf 24 != validStrap p.guestVariant 24 }
  let s := { s with dev := dev }
  if s.evr.returnState then s
  else
    dies.foldl (fun s e =>
      let pay := [(dieKind e.1).1, (dieKind e.1).2, (if e.1 < 25 then p.strapOf e.1 else 0).toNat]
      let s := if e.2.invalid then logEvent 0x3001 pay s else s
      if e.2.duplicate then logEvent 0x3002 pay s else s) s

/-! ### Starts (R525, R526, T15.8) -/

/-- The kinds of start. -/
inductive StartKind where
  | powerOn | full | wake
deriving DecidableEq, Repr

/-- Codes of PWR_RESET_CAUSE (T15.10). -/
def causeCode : ResetCause → Nat
  | .powerOn => 0 | .resetN => 1 | .pwrReset => 2 | .watchdog => 3 | .mismatch => 4 | .wake => 5
  | .thermalTrip => 6 | .vinLost => 7

/-- The log store over a start: what has been stored is kept, limits and counts are not (T15.8, R579). -/
def Evr.restart (e : Evr) (keepPending : Bool) : Evr :=
  { e with pending := if keepPending then e.pending else [], clearing := none, lost := 0, lostRun := 0
           suppressed := 0, buckets := [], overrides := [] }

/-- The DRAM over a start (13 T13.4): a wake keeps the contents for R433's training. -/
def Dram.restart (d : Dram) (k : StartKind) : Dram :=
  if k = .wake then { Dram.reset with mem := d.mem, fills := d.fills, poisoned := d.poisoned, epoch := d.epoch, written := d.written }
  else { Dram.reset with epoch := d.epoch, written := d.written }

/-- Security over a start: stored mode, keys and alarm latch stay. The retention of the latch needs VBAT
through a power-on reset. -/
def Sec.restart (x : Sec) (keep : Bool) : Sec :=
  let y : Sec := { Sec.reset with stored := x.stored, keys := x.keys, policy := x.stored.policy
                                  aclOpen := x.stored != .sealed }
  if keep then { y with latch := x.latch, firstCause := x.firstCause, latching := x.latching } else y

/-- The debug domain over a start (16 R537): a full reset keeps it, but not a grout access in flight, nor, in the
return state, an instruction that is no longer offered (17 R574). -/
def Dbg.restart (d : Dbg) (full sel returned : Bool) : Dbg :=
  if full then
    { d with freeze := 0, xhalt := 0, lanesFrozen := false, accesses := 0, accBusy := false
             instr := if returned && d.instr != 0x02 && d.instr != 0x10 then 0xFF else d.instr
             testActive := d.testActive && !returned }
  else { Dbg.reset with twoWire := sel }

/-- The latch of PWR_RTC_HI, which a reset leaves at the counter it keeps (T15.10). -/
def rtcHiKey : Nat := 0xF0024

/-- The part starts again: every field at its reset value but what Table 15.8 keeps. A wake trains the seams, as R526 has it:
04 R115 can be read otherwise (DEDUCED, assumption log 85). -/
def State.restart (k : StartKind) (cause : ResetCause) (port : Nat) (s : State) : State :=
  let keepAlive := k ≠ .powerOn || s.power.vbat ≠ 0
  let w := s.power
  let power : Power :=
    { Power.reset with
      resetCause := cause, resetPort := BitVec.ofNat 8 port, vin := w.vin, current := w.current, watts := w.watts
      vbat := w.vbat, temps := w.temps, high := w.high, islands := if s.part.guestVariant then 0x1FFFF else 0xFFFF
      rtc := if k = .full then w.rtc else if keepAlive then s.rtcNow else 0
      rtcAt := if k = .full then w.rtcAt else 0, record := if keepAlive then w.record else {}
      wraps := if k = .wake then w.wraps else [], retRoots := if k = .wake then w.retRoots else []
      retRegions := if k = .wake then w.retRegions else [] }
  let t : State :=
    { s with
      intake := { Intake.reset with counters := s.intake.counters }
      fab := { Fabric.reset with vioPresent := s.fab.vioPresent, trainings := s.fab.trainings, seamTrain := s.fab.seamTrain }
      coping := Coping.reset, cfg := { Cfg.reset with bootPins := s.part.cfgBoot }, cap := Cap.reset
      bond := Bond.reset, lanes := Lanes.reset, grout := Grout.reset, engines := []
      dram := s.dram.restart k, sec := s.sec.restart keepAlive
      gst := { Gst.reset with tableOpen := s.sec.stored != .sealed }, power := power
      clk := { Clk.reset with fsel := s.part.clkFsel, releasedAt := if k = .full then s.time else 0 }
      dbg := s.dbg.restart (k = .full) s.part.dbgSel s.evr.returnState
      evr := s.evr.restart (k = .full)
      svp := { Svp.reset with vioPresent := s.svp.vioPresent, vio33 := s.svp.vio33, levels := s.svp.levels }
      latches := SMap.put none [] rtcHiKey (some (BitVec.ofNat 32 (if keepAlive then s.rtcNow.toNat / 2 ^ 32 else 0)))
      time := if k = .full then s.time else 0 }
  let t := sampleStraps t
  if t.evr.returnState then t else trainSeams t

/-- The events of the steward's release (R507, R525): the start, then the Dormant record, which is cleared. -/
def startEvents (s : State) : State :=
  if s.evr.returnState then s
  else
    let full := match s.power.resetCause with
      | .resetN | .pwrReset | .watchdog | .mismatch => true
      | _ => false
    if full then logEvent 0x1002 [causeCode s.power.resetCause, s.power.resetPort.toNat] s
    else
      let s := logEvent 0x1001 [causeCode s.power.resetCause] s
      let r := s.power.record
      let s := { s with power.record := {} }
      if r.cause = 1 then logEvent 0x1006 [r.wake, r.rtc.toNat] s
      else if r.cause = 2 then logEvent 0x1004 [r.time.toNat, r.rtc.toNat] s
      else if r.cause = 3 then
        logEvent 0x1030 [r.die, r.sensor, (r.reading.signExtend 64).toNat] s
      else s

/-- The hottest of the sensors that PWR_TEMP covers: B0 to B7, L0 to L7, H; its die code, sensor and reading
(T15.10). -/
def State.hottestOf (s : State) : Nat × Nat × BitVec 16 :=
  (List.range 17).foldl (fun (best : Nat × Nat × BitVec 16) c =>
    let die := if c < 8 then c else if c < 16 then c + 8 else 24
    let h := s.hottest die
    if best.2.2.toInt < h.2.toInt then (c, h.1, h.2) else best) (0, s.hottest 0)

/-- The number of a die in PWR_TEMP and in thermal events (T15.10); the coping dies, which it leaves out, follow
(assumption log 37). -/
def tempDie (die : Nat) : Nat := if die < 8 then die else if die < 16 then die + 9 else if die < 24 then die - 8 else 16

/-- Every sensor reads below 100 degrees (R528). -/
def State.coolEnough (s : State) : Bool := s.power.temps.all fun e => e.2.toInt < 1600

/-! ### Limits (R501, R504) -/

/-- P_avail in W. -/
def Power.avail (p : Power) : Nat := min 1700 (405 * p.vin.toNat / 1000)

/-- The effective cap. -/
def Power.effectiveCap (p : Power) : Nat := if p.mode = .trim then min p.cap.toNat p.avail else p.avail

/-- One step of Table 15.2, or one back. -/
def Power.limitStep (p : Power) (below : Bool) : Power :=
  let p' : Power :=
    if !below then
      if p.engDiv.toNat < 15 then { p with engDiv := p.engDiv + 1 }
      else if p.genStep.toNat < 16 then { p with genStep := p.genStep + 1 } else p
    else if p.genStep ≠ 0 then { p with genStep := p.genStep - 1 }
    else if p.engDiv ≠ 0 then { p with engDiv := p.engDiv - 1 } else p
  { p' with limiting := p'.engDiv != 0 || p'.genStep != 0 }

/-! ### Hold (R510, R246, R292, R327, 13 T13.4, 18 R587) -/

/-- MODE_CHANGED. -/
def logMode (old new : PwrMode) (cause : Nat) (s : State) : State := logEvent 0x1040 [old.code, new.code, cause] s

/-- Step 2 in a bond domain: HOLD on every group, which then sends nothing until its lanes have retrained (08 R292). -/
def bondHold (s : State) : State :=
  if s.isMember then
    let gs := s.groupsIn .up ++ s.groupsIn .peerHold
    gs.foldl (fun s g => s.setGrp g fun x => { x with holding := true }) (sendCtrl .hold s)
  else s

/-- Step 4: queued requests complete and every trained channel enters self-refresh. -/
def dramSleep (s : State) : State :=
  let s := drainDram s
  { s with dram.chans := SMap.mapAll {} s.dram.chans fun _ c =>
      if c.state = .trained then { c with state := .selfRefresh } else c }

/-- Step 4 reversed: service resumes without training. -/
def dramWake (s : State) : State :=
  { s with dram.chans := SMap.mapAll {} s.dram.chans fun _ c =>
      if c.state = .selfRefresh then { c with state := .trained } else c }

/-- Step 5: every lane in service but those of an enabled PCIe controller enters electrical idle (09 R327). -/
def lanesIdle (s : State) : State :=
  let s := ethAllDown 3 s
  let s := { s with bond.groups := SMap.mapAll {} s.bond.groups fun _ x => if x.holding then { x with usable := 0 } else x }
  { s with lanes.lanes := SMap.mapAll {} s.lanes.lanes fun l x =>
      if (x.state == .up || x.state == .bringup || x.state == .retraining) && !(x.use == 2 && s.pcieLane l) then
        { x.unlock with state := .idle } else x }

/-- The idle lanes that `on` holds bring themselves up again, uncounted; bond lanes retrain (09 R327), but not those whose peer
is still in its Hold (08 T8.5). -/
def lanesRiseOf (on : Lane → Bool) (s : State) : State :=
  { s with lanes.lanes := SMap.mapAll {} s.lanes.lanes fun l x =>
      if x.state == .idle && on x then
        let fault : Bool := (s.laneRef l x.refSel).2 == 2
        let y := s.grp (l / 8)
        if x.use == useBond then
          (if y.state == .peerHold && !y.resuming && !y.holding then x else if fault then { x with state := .noRef }
           else { x with state := .retraining })
        else x.start fault
      else x }

/-- The part has left its Hold and the lanes of a group have settled: RESUME, and the group sends again; with fewer than 6
lanes it goes DOWN (08 R289, R292). -/
def holdSettle (g : Nat) (s : State) : State :=
  let x := s.grp g
  if !x.holding || s.power.mode == .hold || (groupLanes g).any (fun l => (s.lane l).state == .retraining) then s
  else
    let s := s.setGrp g fun x => { x with holding := false }
    if x.usableCount < 6 then groupDown g 2 s
    else groupResume g (pump g (rebudget g (sendCtrlOn .resume g s)))

/-- Step 5 reversed; Ethernet and raw lanes stay idle while freeze bit 2 is in force (16 R553). -/
def lanesRise (s : State) : State := lanesRiseOf (fun x => !(s.frozen.getLsbD 2 && 2 < x.use.toNat)) s

/-- The lanes follow freeze bit 2 (16 R553). -/
def syncFreeze (s : State) : State :=
  let f := s.frozen.getLsbD 2
  if f == s.dbg.lanesFrozen then s
  else
    let s := { s with dbg.lanesFrozen := f }
    if f then lanesQuarantine s
    else if s.power.mode == .hold || s.secAxis == .quarantine then s
    else lanesRiseOf (fun x => decide (2 < x.use.toNat)) s

/-- Hold is reached: steps 2 to 5 of R510, `cause` its hold_cause. -/
def enterHold (cause : BitVec 2) (s : State) : State :=
  let old := s.power.mode
  if old = .hold then { s with power.holdDue := none }
  else
    let s := bondHold s
    let s := keepEdges (fun (s : State) => { s with power := { s.power with mode := .hold, holdCause := cause, holdDue := none } }) s
    let s := (List.range 192).foldl (fun s e => holdEngine e s) s
    let s := lanesIdle (dramSleep s)
    let s := svcSleep s.svp.sleepsInHold s
    logMode old .hold cause.toNat s

/-- Beats run, so that Hold waits for the next beat edge (08 R292); none comes while a peer is in Hold
(assumption log 90). -/
def State.beatsRun (s : State) : Bool := s.bond.state == .running && (s.groupsIn .peerHold).isEmpty

/-- Hold is asked for: it is reached only after a running capture drain or restore has ended (07 T7.4), and where beats run at
the next beat edge (08 R292). -/
def askHold (cause : BitVec 2) (s : State) : State :=
  if s.cap.draining || s.beatsRun then (if s.power.holdDue.isSome then s else { s with power.holdDue := some cause })
  else enterHold cause s

/-- Hold is left for Run or Trim (R510 in the order 5, 4, 3, 2; R587; R246). -/
def leaveHold (new : PwrMode) (s : State) : State :=
  let s := dramWake (lanesRise s)
  let s := { s with svp := s.svp.awake }
  let rise := Engine.clocked s.time fun (x : Engine) => { x with holdStopped := x.holdStopped && x.state == EngState.wedged }
  let s := { s with engines := SMap.mapAll {} s.engines fun _ x => rise x }
  let s := { s with power := { s.power with mode := new, holdCause := 0, capNotMet := false } }
  ((List.range 32).filter fun g => (s.grp g).holding).foldl (fun s g => holdSettle g s) s

/-- A move among Run, Trim and Hold by command (R508, R510). -/
def setMode (new : PwrMode) (s : State) : State :=
  let old := s.power.mode
  if old = new then s
  else if new = .hold then askHold 0 s
  else
    let s := if old = .hold then leaveHold new s else { s with power.mode := new }
    logMode old new 0 s

/-! ### Dormant and loss of power (R502, R511, R528) -/

/-- The part is powered and out of reset. -/
def State.up (s : State) : Bool := s.power.phase == .running || s.power.phase == .starting

/-- The memory keys wrapped and the roots kept in retention RAM (13 T13.4). -/
def retainRegions (s : State) : State :=
  let rs := s.dram.regions
  let dk := (List.range 32).map Config.deviceKey
  { s with power := { s.power with
      wraps := (rs.filter fun e => !e.2.key.isEmpty).map fun e => (e.1, Crypto.kwWrap dk e.2.key)
      retRoots := (rs.filter fun e => !e.2.roots.isEmpty).map fun e => (e.1, e.2.roots)
      retRegions := rs.map fun e => (e.1, { e.2 with key := [], cmd := none }) } }

/-- The whole personality is lost (06 R183), and every load with it: no brick holds an image, and what the fabric and the
slab ports held is gone. -/
def loseImage (s : State) : State :=
  { s with
    cfg := { s.cfg with session := none, load := none, bootAsked := none, loaded := 0, held := [], versions := [], identity := []
                        frameMem := [] }
    fab := { s.fab with les := [], seamRegs := [], seamShadow := [], io := [], gates := [], high := [] }
    coping := { s.coping with ports := [] } }

/-- Every rail but the keep-alive domain is off: the personality, the coping memories, the engines and all grout, lane, bond
and capture state are lost (R511, 10 R361, 11 R396). -/
def railsOff (s : State) : State :=
  let s := loseImage { s with intake.opened := false, engines := [] }
  { s with coping := Coping.reset, cap := Cap.reset, bond := Bond.reset, lanes := Lanes.reset, grout := Grout.reset }

/-- Entry into Dormant (R511): it waits for a capture drain or restore to end. -/
def enterDormant (s : State) : State :=
  if !s.power.dormantDue || s.cap.draining then s
  else
    let old := s.power.mode
    let s := sendLeave (lockAbort 1 (endSession 2 (loadLost s)))
    let s := (List.range 192).foldl (fun s e => holdEngine e s) s
    let s := lanesIdle (dramSleep s)
    let s := retainRegions (flushCache s)
    let s := logMode old .dormant 0 s
    let s := { s with evr := s.evr.programAll s.time s.evr.pending.length }
    let s := svcSleep (fun _ => true) s
    railsOff { s with power := { s.power with
      dormantDue := false, mode := .dormant, phase := .dormant
      record := { cause := 1, time := BitVec.ofNat 64 s.time, rtc := s.rtcNow.zeroExtend 64 } } }

/-- VIN is lost (R502): nothing is drained. In Dormant the rails are off already (R512). -/
def loseVin (s : State) : State :=
  if s.power.phase = .dormant || s.power.phase = .off then { s with power.vin := 0 }
  else
    railsOff { s with power := { s.power with
      phase := .off, vin := 0
      record := { cause := 2, time := BitVec.ofNat 64 s.time, rtc := s.rtcNow.zeroExtend 64 } } }

/-- The thermal trip (R528). -/
def tripOff (die sensor : Nat) (reading : BitVec 16) (s : State) : State :=
  railsOff { s with power := { s.power with
    phase := .tripped, thermtrip := true, temps := SMap.put 0x190 s.power.temps (die * 16 + sensor) reading
    record := { cause := 3, time := BitVec.ofNat 64 s.time, rtc := s.rtcNow.zeroExtend 64
                die := tempDie die, sensor := sensor, reading := reading } } }

/-! ### The source switch (R514, R520) -/

/-- The monitor of a new main reference: a fresh baseline, from which the stages declared so far clear after
their 10 readings; failure was the old source's (assumption log 36). -/
def Mon.rebase (m : Mon) : Mon := { stage := if m.stage = 3 then 2 else m.stage }

/-- The main reference changes: fresh baseline, a round lost, one beat stretched (T15.6). -/
def refSwitch (new : Nat) (s : State) : State :=
  let s := { s with clk := { s.clk with
    current := BitVec.ofNat 4 new, derated := new = 3, mon := s.clk.mon.rebase, switches := satAdd s.clk.switches 1 } }
  let s := { s with grout.rounds := s.grout.rounds + 1 }
  if s.bond.state = .running then
    { s with bond := { s.bond with stretchBeats := satAdd s.bond.stretchBeats 1, stretchNs := s.bond.stretchNs + 40 } }
  else s

/-! ### Registers (T15.10 to T15.13) -/

/-- PWR_STATE. -/
def Power.stateWord (p : Power) : Nat :=
  p.wakeEn.toNat + p.genStep.toNat * 2 ^ 17 + p.engDiv.toNat * 2 ^ 22 + p.holdCause.toNat * 2 ^ 26 +
  b2n p.capNotMet * 2 ^ 28 + b2n p.limiting * 2 ^ 29 + p.mode.code % 4 * 2 ^ 30

/-- PWR_LOOP_REQ_k. -/
def LoopReg.reqWord (l : LoopReg) : Nat := l.lo.toNat + l.hi.toNat * 2 ^ 8 + l.target.toNat * 2 ^ 16

/-- PWR_LOOP_EFF_k. -/
def LoopReg.effWord (l : LoopReg) (held : Bool) : Nat :=
  l.effLo.toNat + l.effHi.toNat * 2 ^ 8 + l.effTarget.toNat * 2 ^ 16 + b2n held * 2 ^ 30 + b2n l.notMet * 2 ^ 31

/-- Loop `k`. -/
def State.loop (s : State) (k : Nat) : LoopReg := SMap.look {} s.power.loops k

/-- The supply of an island in steps of 5 mV: 750 mV where no step has moved it (DESIGN CHOICE, assumption log 86). -/
def Power.supplyOf (p : Power) (u : Nat) : Nat := SMap.look 150 p.supply u

/-- Loop `k` stands at a hardware limit (R529): an island at 550 or 950 mV, the droop threshold at 10 or 40 mV, a DRAM position
at 63 steps, a seam group at code 0 or 31. -/
def State.loopHeld (s : State) (k : Nat) : Bool :=
  if k = 0 then s.power.supply.any fun e => e.2 == 110 || e.2 == 190
  else if k = 1 then s.power.droop == 10 || s.power.droop == 40
  else if k = 2 then s.dram.chans.any fun e => e.2.offset.natAbs == 63
  else if k = 3 then s.fab.groups.any fun e =>
    s.groupRegistered (groupOfKey e.1) && (s.sampleCode (groupOfKey e.1) == 0 || s.sampleCode (groupOfKey e.1) == 31)
  else false

/-- Writes loop `k`. -/
def State.setLoop (s : State) (k : Nat) (f : LoopReg → LoopReg) : State :=
  { s with power.loops := SMap.upd {} s.power.loops k f }

/-- Reads a register of the PWR block. -/
def State.readPwr (s : State) (off : Nat) : Nat :=
  let p := s.power
  if off = 0x00 then p.stateWord
  else if off = 0x04 then p.vin.toNat + p.current.toNat * 2 ^ 16
  else if off = 0x08 then p.watts.toNat + p.effectiveCap * 2 ^ 16
  else if off = 0x0C then p.cap.toNat
  else if off = 0x10 then p.islands.toNat
  else if off = 0x14 then
    let h := s.hottestOf
    h.2.2.toNat + h.2.1 * 2 ^ 16 + h.1 * 2 ^ 24
  else if off = 0x18 then causeCode p.resetCause
  else if off = 0x1C then p.vbat.toNat
  else if off = 0x20 then s.rtcNow.toNat % 2 ^ 32
  else if off = 0x24 then s.rtcNow.toNat / 2 ^ 32
  else if 0x40 ≤ off && off < 0x60 then
    let l := s.loop ((off - 0x40) / 8)
    if off % 8 = 0 then l.reqWord else l.effWord (s.loopHeld ((off - 0x40) / 8))
  else 0

/-- CLK_SRC. -/
def Clk.srcWord (c : Clk) : Nat :=
  c.fsel.toNat + b2n c.xoQualified * 2 ^ 17 + b2n c.standbyLocked * 2 ^ 18 + b2n c.derated * 2 ^ 19 +
  c.alternate.toNat * 2 ^ 20 + c.primary.toNat * 2 ^ 24 + c.current.toNat * 2 ^ 28

/-- CLK_MON. -/
def Mon.word (m : Mon) : Nat := m.reading.toNat + m.stage.toNat * 2 ^ 30

/-- CLK_OUT. -/
def Clk.outWord (c : Clk) : Nat := c.outSrc.toNat + c.outDiv.toNat * 2 ^ 16

/-- Reads a register of the CLK block. -/
def State.readClk (s : State) (off : Nat) : Nat :=
  let c := s.clk
  match off with
  | 0x00 => c.srcWord
  | 0x04 => c.mon.word
  | 0x08 => c.monAlt.word
  | 0x0C => c.switches.toNat
  | 0x10 => c.gate.toNat
  | 0x14 => c.div0.toNat
  | 0x18 => c.div1.toNat
  | 0x1C => c.outWord
  | _ => 0

/-- A write of CLK_GATE: the outputs of a block that it gates hold their levels; gating the SPI service slave closes port 4
and discards its partial packet (R522). -/
def writeGate (v : W32) (s : State) : State :=
  let closes (c : Nat) : Bool := match gateBit c with
    | some b => s.clk.gate.getLsbD b && !v.getLsbD b | none => false
  let stays (c : Nat) : Bool := match gateBit c with
    | some b => !s.clk.gate.getLsbD b && !v.getLsbD b | none => false
  let held := (List.range 224).filter fun c =>
    (stays c && SMap.look false s.svp.gatedOut c) || (closes c && s.blockOut c == .driven true)
  let s := { s with clk.gate := v.truncate 16, svp.gatedOut := held.map fun c => (c, true) }
  if v.getLsbD 12 then s else dropPartial 4 s

end Sys2Proof.Machine
end

