-- ==== Sys2Proof/Machine/GrtOps.lean ====
section
/-!
DEFINITION. Requests and responses in grout (10 R340 to R363, R601): the header the interface fills, answers of
decode, interfaces and routers, delivery at a target with its access-table check (14 R481), guaranteed flows,
probes, and the GRT block.
-/
namespace Sys2Proof.Machine
open Sys2Proof

/-! ### Headers (R341, R342, 14 T14.9) -/

/-- The fabric port of an endpoint. -/
def portOfEp (e : Endpoint) : Option Nat :=
  if e.ep ≠ 0 then none
  else (brickOfRouter e.x e.y).map fun n => 64 * n + (e.x - 4) % 8 + 8 * (e.y % 8)

/-- The lane die of an endpoint. -/
def laneDieOfEp (e : Endpoint) : Option Nat :=
  if e.ep = 2 && 4 ≤ e.x && (e.y = 0 || e.y = 15) then some ((e.x - 4) / 8 + (if e.y = 0 then 0 else 4)) else none

/-- The master ID a source's interface fills in (14 T14.9). The steward's interface carries the debug port's
accesses as well, a lane die's those of the PCIe controller it serves; capture and trace writes keep theirs. -/
def masterOf (e : Endpoint) (given : BitVec 16) : BitVec 16 :=
  if e = stewardEp then (if given = 2 || given = 3 then given else 0)
  else if e = configEp then 1
  else if e = hubEp then 0
  else if e.x < 4 then
    (if e.ep < 3 then BitVec.ofNat 16 (0x100 + engineAt e.x e.y e.ep) else if e.x = 0 then 0x18 else 3)
  else match portOfEp e, laneDieOfEp e with
    | some q, _ => BitVec.ofNat 16 (0x200 + q)
    | _, some m => if (m = 0 && given = 0x10) || (m = 4 && given = 0x11) then given else BitVec.ofNat 16 (0x20 + m)
    | _, _ => 3

/-- The header as the injecting interface fills it (R342). -/
def fillHeader (r : GReq) : GReq :=
  { r with master := masterOf r.src r.master, mgmt := r.src = stewardEp || r.src = configEp }

/-! ### Answers -/

/-- An answer of the decode, an interface or a router: no data. -/
def respond (r : GReq) (status : BitVec 4) (s : State) : State :=
  { s with grout.responses := s.grout.responses ++ [{ req := r, status, data := [], poison := 0 }] }

/-- ISOLATED from a router or the decode, counted. -/
def answerIsolated (r : GReq) (s : State) : State :=
  respond r 2 { s with grout.isoAnswers := satAdd s.grout.isoAnswers 1 }

/-- TIMEOUT from a router, counted. -/
def answerTimeout (r : GReq) (s : State) : State :=
  respond r 3 { s with grout.tmoAnswers := satAdd s.grout.tmoAnswers 1 }

/-! ### The part's own DRAM accesses -/

/-- Writes bytes to one 256-byte block of DRAM under a master ID: the queue of its port performs first. -/
def storeBlock (master a : Nat) (bs : List Byte) (s : State) : BitVec 4 × State :=
  match s.decode a with
  | .inl st => (st, s)
  | .inr d =>
    let (ok, s) := aclCheck (d.target.getD 8) d.ep master a (a + bs.length - 1) 1 s
    if !ok then (1, s)
    else match s.dramRefusal (dramPortOf a) a with
      | some st => (st, s)
      | none => dramWrite master a (bs.map fun _ => true) bs 0 [] (drainPort (dramPortOf a) s)

/-- The bytes of a run that starts at `a`, cut at 256-byte blocks; the first argument bounds the pieces. -/
def blocksOf : Nat → Nat → List Byte → List (Nat × List Byte)
  | 0, _, _ => []
  | _ + 1, _, [] => []
  | f + 1, a, bs =>
    let n := 256 - a % 256
    (a, bs.take n) :: blocksOf f (a + n) (bs.drop n)

/-- Writes a run of bytes to DRAM; the first refusal stops it: its status, and how many bytes were written. -/
def storeCounted (master a : Nat) (bs : List Byte) (s : State) : BitVec 4 × Nat × State :=
  (blocksOf bs.length a bs).foldl (fun (acc : BitVec 4 × Nat × State) p =>
    if acc.1 = 0 then
      let (st, s) := storeBlock master p.1 p.2 acc.2.2
      (st, if st = 0 then acc.2.1 + p.2.length else acc.2.1, s)
    else acc) (0, 0, s)

/-- Writes a run of bytes to DRAM; the first refusal stops it and gives its status. -/
def storeDram (master a : Nat) (bs : List Byte) (s : State) : BitVec 4 × State :=
  let r := storeCounted master a bs s
  (r.1, r.2.2)

/-- Reads bytes of one 256-byte block of DRAM under a master ID, operation `op` of the access table (0 R, 2 X):
status, bytes and each one's poison. -/
def fetchBlock (master op a n : Nat) (s : State) : BitVec 4 × List (Byte × Bool) × State :=
  match s.decode a with
  | .inl st => (st, [], s)
  | .inr d =>
    let (ok, s) := aclCheck (d.target.getD 8) d.ep master a (a + n - 1) op s
    if !ok then (1, [], s)
    else match s.dramRefusal (dramPortOf a) a with
      | some st => (st, [], s)
      | none => dramRead master a n [] (drainPort (dramPortOf a) s)

/-- Reads a run of DRAM bytes; the first refusal stops it and gives its status. -/
def fetchDram (master op a n : Nat) (s : State) : BitVec 4 × List (Byte × Bool) × State :=
  (blocksOf n a (List.replicate n 0)).foldl (fun (acc : BitVec 4 × List (Byte × Bool) × State) p =>
    if acc.1 = 0 then
      let (st, bs, s) := fetchBlock master op p.1 p.2.length acc.2.2
      (st, acc.2.1 ++ bs, s)
    else acc) (0, [], s)

/-! ### Probes (R362, R363) -/

/-- The first 16 header bytes of a packet (T10.4). -/
def headerBytes (op : Byte) (response guaranteed mgmt : Bool) (dst src : Endpoint) (tag : BitVec 10) (master : BitVec 16)
    (len : BitVec 8) (flow : Nat) (status poison : BitVec 4) : List Byte :=
  [op, BitVec.ofNat 8 (b2n response + 2 * b2n guaranteed + 4 * b2n mgmt)] ++
  [dst.x, dst.y, dst.ep, src.x, src.y, src.ep].map (BitVec.ofNat 8) ++ leBytes 2 tag.toNat ++ leBytes 2 master.toNat ++
  [len, BitVec.ofNat 8 flow, BitVec.ofNat 8 status.toNat, BitVec.ofNat 8 poison.toNat]

/-- The data flits of a transfer: the units it touches, its bytes in place. -/
def dataFlits (r : GReq) (data : List Byte) : List Byte :=
  if data.isEmpty then []
  else
    let o := r.addr.toNat % 64
    padTo (64 * ((o + data.length + 63) / 64)) (List.replicate o 0 ++ data)

/-- A request or response as a TXN frame carries it (08 T8.3): header flit with the address at the destination and, in its
last 8 bytes, the device it goes to, then data flits (assumption log 82). -/
def txnPayload (r : GReq) (device : BitVec 6) (addr : Addr) (response : Bool) (status : BitVec 4) (data : List Byte)
    (poison : BitVec 4) : List Byte :=
  let op : Byte := match r.op, response with | .read, false => 1 | .write, false => 2 | .read, true => 0x81 | .write, true => 0x82
  headerBytes op response false r.mgmt r.src r.src r.tag r.master r.len 0xFF status poison ++ leBytes 8 addr.toNat ++
  leBytes 32 r.byteEn.toNat ++ leBytes 8 device.toNat ++ dataFlits r data

/-- A TXN_REQ frame. -/
def sendTxn (g : Nat) (t : Tunnel) (s : State) : State :=
  sendTxnFrame g 1 (txnPayload t.req t.device t.addr false 0 t.req.data t.req.poison) s

/-- A TXN_RSP frame. -/
def sendRsp (g : Nat) (p : GResp) (s : State) : State :=
  sendTxnFrame g 2 (txnPayload p.req 0 p.req.addr true p.status p.data p.poison) s

/-- A packet as probes see it. -/
structure Seen where
  header : List Byte
  response : Bool
  guaranteed : Bool
  master : BitVec 16
  addr : Nat
  flits : Nat

/-- The output a router of a route sends by: 0 north, 1 east, 2 south, 3 west, 4 ejection. -/
def outputAt : List (Nat × Nat) → Nat × Nat → Nat
  | p :: q :: rest, r =>
    if p = r then (if q.1 > p.1 then 1 else if q.1 < p.1 then 3 else if q.2 > p.2 then 0 else 2)
    else outputAt (q :: rest) r
  | _, _ => 4

/-- A comparator's hit: a mask of 0 disables it. -/
def comparatorHits (base mask : W64) (a : Nat) : Bool := mask ≠ 0 && BitVec.ofNat 64 a &&& mask == base &&& mask

/-- The packet passes the probe's filter at an output. -/
def Probe.passes (p : Probe) (out : Nat) (k : Seen) : Bool :=
  p.en && p.outMask.getLsbD out && p.net.getLsbD (b2n k.response) && p.cls.getLsbD (b2n k.guaranteed) &&
  p.masterLo.toNat ≤ k.master.toNat && k.master.toNat ≤ p.masterHi.toNat

/-- A probe record is written to the store, with wrap; without room it is lost. -/
def probeRecord (router out hits : Nat) (k : Seen) (s : State) : State :=
  let lose (s : State) : State :=
    let s := { s with grout.pstoreLost := satAdd s.grout.pstoreLost 1 }
    if SMap.look false s.grout.lossLogged router then s
    else logEvent 0x5030 [router, s.grout.pstoreLost.toNat]
      { s with grout.lossLogged := SMap.put false s.grout.lossLogged router true }
  let slots := s.grout.pstoreLen.toNat / 32
  if slots = 0 then lose s
  else
    let off := s.grout.pstoreNext.toNat
    let bs := leBytes 8 s.time ++ leBytes 4 s.bond.beat.toNat ++ k.header ++ leBytes 1 out ++ leBytes 1 hits ++ [0, 0]
    let (st, s) := storeDram 0 (s.grout.pstoreBase.toNat + off) bs s
    if st ≠ 0 then lose s
    else { s with grout.pstoreNext := BitVec.ofNat 64 ((off + 32) % (32 * slots)) }

/-- A packet passes one probe. -/
def probeSees (router : Nat) (out : Nat) (k : Seen) (s : State) : State :=
  let p := SMap.look {} s.grout.probes router
  if !p.passes out k then s
  else
    let h0 := comparatorHits p.base0 p.mask0 k.addr
    let h1 := comparatorHits p.base1 p.mask1 k.addr
    let p' : Probe :=
      { p with pkts := satAdd p.pkts 1, flits := satAdd p.flits k.flits
               hits0 := satAdd p.hits0 (b2n h0), hits1 := satAdd p.hits1 (b2n h1) }
    let s := { s with grout.probes := SMap.put {} s.grout.probes router p' }
    if p.record then probeRecord router out (b2n h0 + 2 * b2n h1) k s else s

/-- A packet leaves by the outputs of its route; the steward's own probe-store writes match none. -/
def probesSee (src dst : Endpoint) (k : Seen) (s : State) : State :=
  let path := route src dst
  s.grout.probes.foldl (fun s e =>
    let r := (e.1 % 36, e.1 / 36)
    if path.contains r then probeSees e.1 (outputAt path r) k s else s) s

/-- The 64-byte units a transfer touches. -/
def unitsOf (r : GReq) : Nat := (r.addr.toNat + r.len.toNat) / 64 - r.addr.toNat / 64 + 1

/-! ### Guaranteed flows (R350 to R355) -/

/-- The flow a packet travels in, once it is in force. -/
def State.flowOf (s : State) (network : Bool) (src dst : Endpoint) : Option Flow :=
  s.grout.flows.find? fun f => f.active && f.network == network && f.src == src && f.dst == dst

/-- Reserved slots of a flow. -/
def Flow.count (f : Flow) : Nat := popCount f.slots.toNat 32

/-- Changes a flow by its number. -/
def updFlow (id : Nat) (g : Flow → Flow) (s : State) : State :=
  { s with grout.flows := s.grout.flows.map fun f => if f.id = id then g f else f }

/-- The slots a flow holds on the link `h` hops along its route (R351). -/
def Flow.slotsAt (f : Flow) (h : Nat) : List Nat := (bitList f.slots.toNat 32).map fun b => (b + h) % 32

/-- The owner of slot `k` at output `dir` of a router: 0xFF free. -/
def State.slotOwner (s : State) (x y dir k : Nat) : Nat :=
  match s.grout.flows.find? (fun f =>
    let path := route f.src f.dst
    f.active && match path.idxOf? (x, y) with
      | none => false
      | some h => outputAt path (x, y) == dir && (f.slotsAt h).contains k) with
  | some f => f.id
  | none => 0xFF

/-- The output exists: a link towards a neighbour, or the ejection. -/
def linkExists (x y dir : Nat) : Bool :=
  x < 36 && y < 16 &&
  match dir with
  | 0 => y < 15 | 1 => x < 35 | 2 => 0 < y | 3 => 0 < x | 4 => true | _ => false

/-! ### Delivery at the target (R343, R345, R356, 14 R481, 04 R142 to R144, 08 R285) -/

/-- A request reaches a fabric port: a held port answers ISOLATED; with its clock stopped and 16 beats waiting it is dropped
(04 R143, R144); with its clock running it waits in grout for space in the FIFO (04 R140). -/
def portTakes (q : Nat) (r : GReq) (s : State) : State :=
  if s.portHeld q then respond r 2 s
  else if !s.portRuns q && 16 ≤ (s.port q).tq.length then
    logEvent 0x4120 [q / 64, q % 64, r.master.toNat]
      (respond r 3 (s.setPort q fun x => { x with dropped := true }))
  else s.setPort q fun x => if x.tq.length < 16 then { x with tq := x.tq ++ [r] } else { x with door := x.door ++ [r] }

/-- A request is handed to a group once there is space for its response (08 R285); `via` is the group that a forwarded one
came by. -/
def launch (g : Nat) (t : Tunnel) (via : Option Nat) (s : State) : State :=
  let x := s.grp g
  if 64 ≤ x.tunnels.length + x.forwards.length then
    s.setGrp g fun x => { x with queued := x.queued ++ [(t, via)] }
  else
    sendTxn g t (s.setGrp g fun x => match via with
      | none => { x with tunnels := x.tunnels ++ [t.req] }
      | some v => { x with forwards := x.forwards ++ [(t.req, v)] })

/-- Space has come free on a group: the first request that waits leaves. -/
def launchNext (g : Nat) (s : State) : State :=
  match (s.grp g).queued with
  | [] => s
  | (t, via) :: rest =>
    if (s.grp g).state == .up then launch g t via (s.setGrp g fun x => { x with queued := rest }) else s

/-- A request reaches its destination endpoint: the access table of its target decides, then the target takes
it. -/
def deliverReq (r : GReq) (d : Dest) (s : State) : State :=
  if s.isDead d.ep then answerIsolated r s
  else
    let a := r.addr.toNat
    let (ok, s) := match d.target with
      | none => (true, s)
      | some t => aclCheck t d.ep r.master.toNat a (a + r.len.toNat) (match r.op with | .read => 0 | .write => 1) s
    if !ok then respond r 1 s
    else match portOfEp d.ep, d.target with
      | some q, none => portTakes q r s
      | _, some 15 => match s.bondRoute a with
        | .inl st => respond r st s
        | .inr g =>
          let (device, addr) := s.bondTarget a
          launch g { req := r, device, addr } none s
      | _, _ => { s with grout.inflight := s.grout.inflight ++ [r] }

/-- A packet leaves its source for `d`. -/
def sendReq (r : GReq) (d : Dest) (flow : Option Flow) (s : State) : State :=
  let k : Seen :=
    { header := headerBytes (match r.op with | .read => 1 | .write => 2) false flow.isSome r.mgmt d.ep r.src r.tag r.master r.len
        ((flow.map (·.id)).getD 0xFF) 0 r.poison
      response := false, guaranteed := flow.isSome, master := r.master, addr := r.addr.toNat
      flits := 1 + (match r.op with | .read => 0 | .write => unitsOf r) }
  let s := match flow with
    | some f => updFlow f.id (fun f => { f with outstanding := f.outstanding + 1 }) s
    | none => s
  deliverReq r d (probesSee r.src d.ep k s)

/-- Freeze bit 0 holds the request at its source (16 R553): all but management requests and the hub's own masters. -/
def State.injectFrozen (s : State) (r : GReq) : Bool :=
  s.frozen.getLsbD 0 && !r.mgmt && r.src != stewardEp && r.src != configEp

/-- A request enters grout (R339, R340, R352, R354, R601); there is none while the part is without power, in Dormant or in
reset (R337, R361). -/
def groutRequest (r : GReq) (s : State) : State :=
  if !s.up || !s.endpointExists r.src || s.injectFrozen r then s
  else
    let r := fillHeader r
    if s.isDead r.src || s.unitOut r.src then respond r 2 s
    else match s.decode r.addr.toNat with
      | .inl st => if st = 2 then answerIsolated r s else respond r st s
      | .inr d =>
        if s.routeBlocked r.src d.ep then
          logEvent 0x5040 [r.src.x, r.src.y, r.src.ep, r.addr.toNat] (answerIsolated r s)
        else if s.unitOut d.ep then answerIsolated r s
        else match s.flowOf false r.src d.ep with
          | none => sendReq r d none s
          | some f =>
            if f.outstanding < f.count then sendReq r d (some f) s
            else { s with grout.waiting := s.grout.waiting ++ [r] }

/-- Where a request that waits at its source goes. -/
def State.destOf (s : State) (r : GReq) : Option Dest :=
  match s.decode r.addr.toNat with | .inl _ => none | .inr d => some d

/-- The first packet of a flow that waits at its source is sent (R354). -/
def sendWaiting (f : Flow) (s : State) : State :=
  match s.grout.waiting.find? (fun r => r.src == f.src && !s.injectFrozen r && (s.destOf r).any (·.ep == f.dst)) with
  | none => s
  | some r => groutRequest r { s with grout.waiting := s.grout.waiting.erase r }

/-- A response frees a packet of its request's flow (R354). -/
def flowAnswered (r : GReq) (dst : Endpoint) (s : State) : State :=
  match s.flowOf false r.src dst with
  | none => s
  | some f =>
    if f.outstanding = 0 then s
    else sendWaiting f (updFlow f.id (fun f => { f with outstanding := f.outstanding - 1 }) s)

/-- A new round (R350, R355): flows added take force and flows removed go; their waiting packets go out as best
effort. -/
def startRound (s : State) : State :=
  let kept := (s.grout.flows.filter fun f => !f.removing).map fun f => { f with active := true }
  let s := { s with grout := { s.grout with roundLocked := true, rounds := s.grout.rounds + 1, flows := kept } }
  let freed := s.grout.waiting.filter fun r =>
    !s.injectFrozen r && (match s.destOf r with | some d => (s.flowOf false r.src d.ep).isNone | none => true)
  freed.foldl (fun s r => groutRequest r { s with grout.waiting := s.grout.waiting.erase r }) s

/-! ### Dead targets and fences (R356 to R360) -/

/-- The requests that wait at or have been delivered to some endpoints. -/
def State.pendingAt (s : State) (at_ : Endpoint → Bool) : List GReq :=
  s.grout.inflight.filter (fun r => (s.destOf r).any fun d => at_ d.ep)

/-- The fabric ports of some endpoints, of those that hold anything. -/
def State.portsAt (s : State) (at_ : Endpoint → Bool) : List Nat :=
  (s.fab.ports.map (·.1)).filter fun q => at_ (portEp q)

/-- The bond-window requests of this part at some endpoints: those that wait for space on a group, those it has sent. -/
def State.bondAt (s : State) (at_ : Endpoint → Bool) : List GReq × List GReq :=
  let here (r : GReq) : Bool := (s.destOf r).any fun d => at_ d.ep
  ((s.bond.groups.map fun e => (e.2.queued.filter (·.2.isNone)).map (·.1.req)).flatten.filter here,
   (s.bond.groups.map fun e => e.2.tunnels).flatten.filter here)

/-- Takes the requests at some endpoints away from their targets: those waiting, then those delivered. -/
def takeRequests (at_ : Endpoint → Bool) (s : State) : List GReq × List GReq × State :=
  let mine := s.pendingAt at_
  let qs := s.portsAt at_
  let (door, sent) := s.bondAt at_
  let waiting := (qs.map fun q => (s.port q).tq ++ (s.port q).door).flatten ++ door
  let delivered := mine ++ (qs.map fun q => (s.port q).delivered.map (·.req)).flatten ++ sent
  let s := { s with grout.inflight := s.grout.inflight.filter fun r => !mine.contains r }
  let s := { s with bond.groups := SMap.mapAll {} s.bond.groups fun _ x =>
    { x with queued := x.queued.filter fun t => !(t.2.isNone && door.contains t.1.req)
             tunnels := x.tunnels.filter fun r => !sent.contains r } }
  let s := qs.foldl (fun s q => s.setPort q fun x => { x with tq := [], door := [], delivered := [] }) s
  (waiting, delivered, s)

/-- The endpoints of a lane die or the guest gate. -/
def dieEndpoints (die : Nat) : List Endpoint :=
  if die = 25 then [{ x := 0, y := 7, ep := 3 }, { x := 0, y := 8, ep := 3 }]
  else if 16 ≤ die && die < 24 then
    let m := die - 16
    (List.range 8).map fun i => { x := 4 + 8 * (m % 4) + i, y := if m < 4 then 0 else 15, ep := 2 }
  else []

/-- The die states follow the dead endpoints (01 T1.16, R356). -/
def isolateDies (s : State) : State :=
  ((List.range 8).map (16 + ·) ++ [25]).foldl (fun s i =>
    let es := dieEndpoints i
    if es.all s.isDead then (if (s.die i).state = DieState.running then s.setDie i fun d => { d with state := .isolated } else s)
    else if (s.die i).state = DieState.isolated && !(i = 25 && s.gst.isolated) then s.setDie i fun d => { d with state := .running } else s) s

/-- A capture drain, a restore or a trace collector holds the hidden port of the slab at a window address (R599). -/
def State.windowHeld (s : State) (a : Nat) : Bool :=
  let n := a / 2 ^ 29 % 8
  let c := s.coll n
  s.dieDrains n || ((c.running || c.flush) && !c.dram && (s.slabCfg n (a % 2 ^ 29 / 16384)).use == 2)

/-- The endpoint is paused (R357, R599): a port whose clock is stopped, a DRAM port in self-refresh, an engine whose clock
is stopped, a coping window at which a request needs a hidden port that is held, or any while the grout is frozen
(16 R553). -/
def State.paused (s : State) (e : Endpoint) : Bool :=
  s.frozen.getLsbD 0 ||
  match portOfEp e with
  | some q => !s.portRuns q
  | none =>
    if 4 ≤ e.x then
      e.ep == 1 && s.grout.inflight.any fun r => (s.destOf r).any (·.ep == e) && s.windowHeld r.addr.toNat
    else if e.ep < 3 then (s.eng (engineAt e.x e.y e.ep)).holdStopped
    else e.x == 3 && e.ep == 3 && (s.chan (e.y / 2)).state == .selfRefresh

/-- An endpoint is isolated as dead (R356); a paused one's timer stands, and what a lane die has accepted never counts as
unanswered: its own limit bounds it. -/
def deadTarget (e : Endpoint) (noResponse : Bool) (s : State) : State :=
  if !s.endpointExists e || s.isDead e || s.paused e || (noResponse && (laneDieOfEp e).isSome) then s
  else
    let (waiting, delivered, s) := takeRequests (· == e) s
    let oldest := if noResponse then delivered.head? else (waiting ++ delivered).head?
    let (waiting, delivered) := if noResponse then (waiting, delivered) else (waiting ++ delivered, [])
    let s := { s with grout := { s.grout with
      dead := epKey e :: s.grout.dead
      deadLast := BitVec.ofNat 32 (e.ep + e.y * 2 ^ 8 + e.x * 2 ^ 16 + b2n noResponse * 2 ^ 30 + 2 ^ 31) } }
    let s := delivered.foldl (fun s r => answerTimeout r s) s
    let s := waiting.foldl (fun s r => answerIsolated r s) s
    let s := logEvent 0x5010 [e.x, e.y, e.ep, b2n noResponse, (oldest.map (·.master.toNat)).getD 0,
      (oldest.map (·.tag.toNat)).getD 0] s
    isolateDies s

/-- A unit's endpoints at a router. -/
def unitAt (u router : Nat) (e : Endpoint) : Bool := inUnit u e && e.x + 36 * e.y == router

/-- The requests that some endpoints issued and that no response has reached: on their way, at a port, on a bond group, or
answered already. -/
def State.issuedBy (s : State) (at_ : Endpoint → Bool) : List GReq :=
  (s.grout.inflight ++ s.grout.responses.map (·.req) ++
    (s.fab.ports.map fun e => e.2.tq ++ e.2.door ++ e.2.delivered.map (·.req)).flatten ++
    (s.bond.groups.map fun e => (e.2.queued.filter (·.2.isNone)).map (·.1.req) ++ e.2.tunnels).flatten).filter
    fun r => at_ r.src

/-- Nothing that the unit's endpoints at a router received or issued is unanswered (R359). -/
def State.unitQuiet (s : State) (u router : Nat) : Bool :=
  let at_ := unitAt u router
  (s.pendingAt at_).isEmpty && (s.bondAt at_).1.isEmpty && (s.bondAt at_).2.isEmpty && (s.issuedBy at_).isEmpty &&
  (s.portsAt at_).all fun q => (s.port q).tq.isEmpty && (s.port q).door.isEmpty && (s.port q).delivered.isEmpty && (s.port q).iq.isEmpty

/-- The dies of a unit take a fence state (R359, R367). -/
def setUnitDies (u : Nat) (st : DieState) (s : State) : State :=
  (unitDies u).foldl (fun s i => s.setDie i fun d => { d with state := st }) s

/-- The reply of a fence: GRT_UNIT_u and the requests answered TIMEOUT (R366). -/
def State.fenceData (s : State) (u : Nat) : List Byte := leBytes 4 (s.unitWord u) ++ leBytes 4 (s.unit u).timeouts.toNat

/-- FENCED is sent: the unit is fenced, the fence is logged and its command completes. -/
def fenceDone (u : Nat) (forced : Bool) (s : State) : State :=
  let us := min 65535 ((s.time - (s.unit u).startAt) / 100)
  let cmd := (s.unit u).cmd
  let s := s.setUnit u fun x =>
    { x with state := .fenced, forced, drainUs := BitVec.ofNat 16 us, cmd := none, reqRouters := [], drainedRouters := [] }
  let s := setUnitDies u .fenced s
  let s := logEvent 0x5001 [u, b2n forced, (s.unit u).timeouts.toNat, us] s
  match cmd with
  | none => s
  | some (p, src, tag) => reach p src tag (if forced then Status.timeout else Status.ok) (s.fenceData u) s

/-- The drain limit passes (R360): the fence is forced. -/
def forceFence (u : Nat) (s : State) : State :=
  if (s.unit u).state ≠ .draining && (s.unit u).state ≠ .drained then s
  else
    let s := s.passTo ((s.unit u).startAt + (s.unit u).drainMs * ticksPerMs)
    let (waiting, delivered, s) := takeRequests (inUnit u) s
    let all := waiting ++ delivered
    let s := all.foldl (fun s r => answerTimeout r s) s
    let own := s.issuedBy (inUnit u)
    let s := s.setUnit u fun x => { x with timeouts := satAdd x.timeouts all.length, discards := own }
    fenceDone u true s

/-! ### The GRT block (T10.7 to T10.10) -/

/-- GRT_STATE. -/
def Grout.stateWord (g : Grout) : Nat := g.dead.length + min 255 g.flows.length * 2 ^ 16 + b2n g.roundLocked * 2 ^ 31

/-- GRT_PROBE_CFG. -/
def Probe.cfgWord (p : Probe) : Nat :=
  b2n (p.mask0 != 0) + 2 * b2n (p.mask1 != 0) + p.cls.toNat * 2 ^ 16 + p.net.toNat * 2 ^ 20 + p.outMask.toNat * 2 ^ 24 +
  b2n p.record * 2 ^ 30 + b2n p.en * 2 ^ 31

/-- The 32 slot owners of a link; none selected: zeros. -/
def State.slotOwners (s : State) (sel : Nat) : List Byte :=
  let (x, y, dir) := (bitsAt sel 16 6, bitsAt sel 8 4, bitsAt sel 0 3)
  if linkExists x y dir then (List.range 32).map fun k => BitVec.ofNat 8 (s.slotOwner x y dir k) else List.replicate 32 0

/-- The probe GRT_PROBE_SEL selects. -/
def State.selectedProbe (s : State) : Probe :=
  let r := s.grout.probeSel.toNat % 1024
  if r < 576 then SMap.look {} s.grout.probes r else {}

/-- Reads a register of the GRT block. -/
def State.readGrt (s : State) (off : Nat) : Nat :=
  let g := s.grout
  let p := s.selectedProbe
  if off = 0x00 then g.stateWord
  else if off = 0x04 then g.rounds.toNat % 2 ^ 32
  else if off = 0x08 then g.rounds.toNat / 2 ^ 32
  else if off = 0x0C then g.deadLast.toNat
  else if off = 0x10 then g.absorbed.toNat
  else if off = 0x14 then g.isoAnswers.toNat
  else if off = 0x18 then g.tmoAnswers.toNat
  else if 0x40 ≤ off && off < 0x84 then s.unitWord ((off - 0x40) / 4)
  else if off = 0x100 then g.slotSel.toNat
  else if 0x104 ≤ off && off < 0x124 then fieldAt (s.slotOwners g.slotSel.toNat) (off - 0x104) 4
  else if off = 0x200 then g.probeSel.toNat
  else if off = 0x204 then p.cfgWord
  else if off = 0x208 then p.pkts.toNat % 2 ^ 32
  else if off = 0x20C then p.pkts.toNat / 2 ^ 32
  else if off = 0x210 then p.flits.toNat % 2 ^ 32
  else if off = 0x214 then p.flits.toNat / 2 ^ 32
  else if off = 0x218 then p.hits0.toNat + p.hits1.toNat * 2 ^ 16
  else if off = 0x220 then g.pstoreNext.toNat % 2 ^ 32
  else if off = 0x224 then g.pstoreNext.toNat / 2 ^ 32
  else if off = 0x228 then g.pstoreLost.toNat
  else 0

end Sys2Proof.Machine
end

