-- ==== Sys2Proof/Machine/CheckOps.lean ====
section
/-!
DEFINITION. Checkpoints (07 R230 to R234, R250): the header, directory and sections that a capture writes, their
encryption in Sealed, and what a restore reads back and loads.
-/
namespace Sys2Proof.Machine
open Sys2Proof

/-! ### Sections (R231, R232, R250) -/

/-- A section: its kind (0 flip-flops, 1 seam registers, 2 memory-mode LUTs, 3 slabs, 4 bond), index, items and
plain bytes. -/
structure Section where
  kind : Nat
  index : Nat
  items : Nat
  body : List Byte
deriving DecidableEq, Repr

/-- The 64-byte record of a course (R232), its flip-flops read by `rd`. -/
def courseRecord (rd : LeAddr → Bool → Bool) (n : Fin 8) (slab : Nat) : List Byte :=
  leBytes 64 (bitsNat ((List.range 512).map fun j =>
    let f := courseFf n (slab % 160) (slab / 160) j
    rd f.1 f.2))

/-- A bitmap of the 25,600 courses or slabs of a brick. -/
def bitmap (f : Nat → Bool) : List Byte := leBytes 3200 (bitsNat ((List.range 25600).map f))

/-- The value of an LE's memory shadow. -/
def State.leMemShadow (s : State) (x : LeAddr) : W64 := (s.leCfg x).tt ^^^ (s.le x).memShadow

/-- Kind 0. -/
def State.ffSection (s : State) (n : Fin 8) : Section :=
  { kind := 0, index := n, items := 25600
    body := ((List.range 25600).map fun slab => courseRecord s.ffShadow n slab).flatten }

/-- The shadow of a group's registers, 0 for an unregistered wire. -/
def State.seamWord (s : State) (g : SeamGroup) : Nat :=
  bitsNat ((List.range 32).map fun w =>
    bitAt (s.groupField g 0 32) w && (SMap.look 0 s.fab.seamShadow g.key).getLsbD w)

/-- The groups of a seam, direction 0, then 1. -/
def seamGroups (k : Fin 10) : List SeamGroup :=
  (List.range 2560).map fun i => { seam := k, dir := Fin.ofNat 2 (i / 1280), group := Fin.ofNat 1280 (i % 1280) }

/-- Kind 1. -/
def State.seamSection (s : State) (k : Fin 10) : Section :=
  { kind := 1, index := k, items := 2560, body := ((seamGroups k).map fun g => leBytes 4 (s.seamWord g)).flatten }

/-- Kind 2. -/
def State.lutSection (s : State) (n : Fin 8) : Section :=
  let ms := (List.range 25600).filter (s.marked n)
  { kind := 2, index := n, items := ms.length
    body := bitmap (s.marked n) ++
      (ms.map fun slab => ((courseLes n slab).map fun x =>
        leBytes 8 (if s.isMemory x then (s.leMemShadow x).toNat else 0)).flatten).flatten }

/-- Kind 3: slabs with slab_use 1, read through their hidden ports. -/
def slabSection (n : Fin 8) (s : State) : Section × State :=
  let taken := (List.range 25600).filter fun k => (s.slabCfg n k).use == 1
  let (parts, s) := taken.foldl (fun (acc : List (Nat × List (Byte × Bool)) × State) k =>
    let (bs, s) := windowRead n 16384 (16384 * k) acc.2
    (acc.1 ++ [(k, bs)], s)) ([], s)
  let bad := parts.filter fun p => p.2.any (·.2)
  ({ kind := 3, index := n, items := taken.length
     body := bitmap taken.contains ++ bitmap (fun k => bad.any fun p => p.1 == k) ++
       (parts.map fun p => (p.2.map (·.1)) ++
         (if p.2.any (·.2) then leBytes 2048 (bitsNat (p.2.map (·.2))) else [])).flatten }, s)

/-- The groups of a domain with samples on their way. -/
def State.activeGroups (s : State) : List Nat := (List.range 32).filter fun g => (s.grp g).inDomain

/-- The rows on their way at the strobe, with pipelined wiring (R250): the row that edge E presents, and those received for
later beats. -/
def State.bondRows (s : State) : List (Nat × Nat × List Byte) :=
  let b := s.bond.beat.toNat
  if s.isMember && s.bond.pipelined then
    s.activeGroups.flatMap fun g =>
      let x := s.grp g
      (match dueBeat b x.k.toNat with | some n => [(g, n, x.presented)] | none => []) ++
      (x.incoming.filter fun e => decide (e.1.toNat ≤ b)).map fun e => (g, e.1.toNat, e.2)
  else []

/-- Kind 4, with pipelined wiring: per active group the samples received and not yet presented at E (R250). -/
def State.bondSection (s : State) (c : Capture) : Section :=
  let gs := s.activeGroups
  { kind := 4, index := 0, items := gs.length
    body := (gs.map fun g =>
      let x := s.grp g
      let k := x.k.toNat
      leBytes 1 g ++ leBytes 1 k ++ leBytes 6 0 ++
      ((List.range k).map fun r =>
        match c.rows.find? fun e => e.1 == g && e.2.1 + k == c.beat.toNat + 1 + r with
        | some e => padTo 512 e.2.2
        | none => List.replicate 512 0).flatten).flatten }

/-- The bricks of a mask. -/
def bricksOf (mask : Nat) : List (Fin 8) := (bitList mask 8).map (Fin.ofNat 8)

/-- The seams whose two bricks are both in a mask. -/
def seamsIn (mask : Nat) : List (Fin 10) :=
  ((List.range 10).filter fun k => bitAt mask (seamBricks k).1 && bitAt mask (seamBricks k).2).map (Fin.ofNat 10)

/-- The sections of a capture's checkpoint, in directory order. -/
def checkpointSections (c : Capture) (s : State) : List Section × State :=
  let m := s.cfg.loaded.toNat
  let a := (bricksOf m).map s.ffSection ++ (seamsIn m).map s.seamSection ++
    ((bricksOf m).filter fun n => (List.range 25600).any (s.marked n)).map s.lutSection
  let (sl, s) := if c.take.full then
      (bricksOf m).foldl (fun (acc : List Section × State) n =>
        let (x, s) := slabSection n acc.2
        (acc.1 ++ [x], s)) ([], s)
    else ([], s)
  (a ++ sl ++ (if s.isMember && s.bond.pipelined then [s.bondSection c] else []), s)

/-! ### Encryption (R233) -/

/-- The units of a section. -/
def unitsOfBody (body : List Byte) : List (List Byte) := chunksOf 65536 (body.length / 65536 + 1) body

/-- The IV of a unit: nonce_base with its low 32 bits, little-endian, exclusive-or the unit number. -/
def unitIv (nonce : List Byte) (u : Nat) : List Byte :=
  leBytes 4 (Nat.xor (fieldAt nonce 0 4) (u % 2 ^ 32)) ++ slice nonce 4 8

/-- A section as it is stored, the first of its units numbered `u`. -/
def sealBody (key nonce body : List Byte) (u : Nat) : List Byte :=
  (((unitsOfBody body).zipIdx).map fun p =>
    let iv := unitIv nonce (u + p.2)
    let c := Crypto.gcmCrypt key iv p.1
    c ++ Crypto.gcmTag key iv [] c).flatten

/-- The plain bytes of a stored section; none where a unit's tag is wrong. -/
def openBody (key nonce body : List Byte) (u : Nat) : Option (List Byte) :=
  let us := chunksOf 65552 (body.length / 65552 + 1) body
  if (us.zipIdx).all fun p =>
      Crypto.gcmTag key (unitIv nonce (u + p.2)) [] (p.1.take (p.1.length - 16)) == p.1.drop (p.1.length - 16)
  then some ((us.zipIdx).map fun p =>
    Crypto.gcmCrypt key (unitIv nonce (u + p.2)) (p.1.take (p.1.length - 16))).flatten
  else none

/-! ### Layout (R230, R231, R233) -/

/-- The stored length of a section of `n` plain bytes. -/
def storedLength (sealed : Bool) (n : Nat) : Nat := if sealed then n + 16 * ((n + 65535) / 65536) else n

/-- Offsets and lengths of stored sections, each at the next multiple of 4,096. -/
def placeSections : Nat → List Nat → List (Nat × Nat)
  | _, [] => []
  | at_, n :: ns =>
    let o := roundUp 4096 at_
    (o, n) :: placeSections (o + n) ns

/-- The end of the last section. -/
def totalLength (dirEnd : Nat) (ps : List (Nat × Nat)) : Nat := (ps.getLast?.map fun p => p.1 + p.2).getD dirEnd

/-- The plain lengths of a checkpoint's sections with a poison map for every slab taken (R233). -/
def State.requiredLengths (s : State) (full : Bool) : List Nat :=
  let m := s.cfg.loaded.toNat
  (bricksOf m).map (fun _ => 1638400) ++ (seamsIn m).map (fun _ => 10240) ++
  ((bricksOf m).filter fun n => (List.range 25600).any (s.marked n)).map (fun n =>
    3200 + 2048 * ((List.range 25600).filter (s.marked n)).length) ++
  (if full then (bricksOf m).map (fun (n : Fin 8) =>
    6400 + 18432 * ((List.range 25600).filter fun k => (s.slabCfg n k).use == 1).length) else []) ++
  (if s.isMember && s.bond.pipelined then [(s.activeGroups.map fun g => 8 + 512 * (s.grp g).k.toNat).sum] else [])

/-- The area a capture needs (R233). -/
def State.requiredLength (s : State) (full : Bool) : Nat :=
  let ls := (s.requiredLengths full).map (storedLength (s.secAxis == .sealed))
  totalLength (512 + 32 * ls.length) (placeSections (512 + 32 * ls.length) ls)

/-- The capture key and the key_id in force, in Sealed (R233). -/
def State.sealKey (s : State) : Option (List Byte × W64) :=
  if s.secAxis == .sealed then s.sec.session.bind fun n => n.captureKey.map fun k => (k, n.keyId) else none

/-- Units of the sections before each one, numbered from 1. -/
def unitStarts : Nat → List Section → List Nat
  | _, [] => []
  | u, x :: xs => u :: unitStarts (u + (unitsOfBody x.body).length) xs

/-- A brick record of the header (R230). -/
def State.brickRecord (s : State) (n : Nat) : List Byte :=
  leBytes 4 (SMap.look 0 s.cfg.versions n).toNat ++ leBytes 4 0 ++ padTo 16 (SMap.look [] s.cfg.identity n)

/-- A whole checkpoint as stored, with its valid word 0. -/
def encodeCheckpoint (c : Capture) (secs : List Section) (s : State) : List Byte :=
  let key := c.key
  let nonce : List Byte := if key.isSome then (List.range 12).map (Config.freeByte s.freeNo) else List.replicate 12 0
  let bodies := (secs.zip (unitStarts 1 secs)).map fun p =>
    match key with | some (k, _) => sealBody k nonce p.1.body p.2 | none => p.1.body
  let dirEnd := 512 + 32 * secs.length
  let places := placeSections dirEnd (bodies.map (·.length))
  let total := totalLength dirEnd places
  let dir := ((secs.zip places).map fun p =>
    leBytes 1 p.1.kind ++ leBytes 1 p.1.index ++ leBytes 2 0 ++ leBytes 4 p.1.items ++ leBytes 8 p.2.1 ++ leBytes 8 p.2.2 ++
    leBytes 8 0).flatten
  let head := leBytes 2 1 ++ leBytes 1 (b2n c.take.full) ++
    leBytes 1 (b2n key.isSome + 2 * b2n c.take.domain + 4 * b2n c.incoherent + 8 * b2n c.noEdge) ++
    leBytes 2 0x4D4C ++ leBytes 2 (if s.part.guestVariant then 0x0353 else 0x0352) ++ leBytes 1 s.cfg.loaded.toNat ++
    leBytes 1 c.runLine.toNat ++ leBytes 1 (if s.isMember then s.bond.device.toNat else 0xFF) ++ leBytes 1 secs.length ++
    leBytes 8 c.time.toNat ++ leBytes 8 c.beat.toNat ++ leBytes 8 c.edge.toNat ++
    leBytes 8 c.dutLines.toNat ++ leBytes 8 total ++ leBytes 8 (match key with | some (_, id) => id.toNat | none => 0) ++ nonce ++ leBytes 4 0 ++
    ((List.range 8).map s.brickRecord).flatten ++ List.replicate 224 0
  let tag := match key with
    | some (k, _) => Crypto.gcmTag k (unitIv nonce 0) (head ++ dir) []
    | none => List.replicate 16 0
  let base := leBytes 4 0 ++ head ++ tag ++ dir
  ((places.zip bodies).foldl (fun (out : List Byte) p => padTo p.1.1 out ++ p.2) base)

/-! ### Restore (R226 to R229) -/

/-- An entry of a checkpoint's directory (R231). -/
structure DirEntry where
  kind : Nat
  index : Nat
  offset : Nat
  length : Nat
deriving DecidableEq, Repr

/-- The directory of a checkpoint, from its header and directory bytes. -/
def dirOf (bs : List Byte) : List DirEntry :=
  (List.range (fieldAt bs 15 1)).map fun i =>
    let o := 512 + 32 * i
    { kind := fieldAt bs o 1, index := fieldAt bs (o + 1) 1, offset := fieldAt bs (o + 8) 8, length := fieldAt bs (o + 16) 8 }

/-- Where the directory of a checkpoint ends. -/
def dirEnd (bs : List Byte) : Nat := 512 + 32 * fieldAt bs 15 1

/-- Steps 1 and 2 of R226, on the 512 header bytes: a failure's status and cause. -/
def headerWrong (areaLen : Nat) (bs : List Byte) : Option (BitVec 16 × Nat) :=
  if areaLen < fieldAt bs 48 8 then some (Status.badParam, 1)
  else if fieldAt bs 0 4 ≠ 1 || fieldAt bs 4 2 ≠ 1 || fieldAt bs 8 2 ≠ 0x4D4C || fieldAt bs 48 8 < dirEnd bs then
    some (Status.badParam, 5)
  else none

/-- Step 2 as to where the sections lie, and step 3, on header and directory. -/
def State.headerDenied (s : State) (key : Option (List Byte × W64)) (bs : List Byte) : Option (BitVec 16 × Nat) :=
  let sealed : Bool := s.secAxis == .sealed
  if (dirOf bs).any (fun d => decide (fieldAt bs 48 8 < d.offset + d.length)) then some (Status.badParam, 5)
  else if bitAt (fieldAt bs 7 1) 0 != sealed then some (Status.badState, 7)
  else if !sealed then none
  else match key with
    | none => some (Status.badState, 7)
    | some (k, id) =>
      if id.toNat ≠ fieldAt bs 56 8 then some (Status.badState, 7)
      else if Crypto.gcmTag k (unitIv (slice bs 64 12) 0) (slice bs 4 492 ++ slice bs 512 (dirEnd bs - 512)) [] != slice bs 496 16 then
        some (Status.badParam, 6)
      else none

/-- Step 4: every brick of the checkpoint holds the personality recorded. -/
def State.bricksMatch (s : State) (bs : List Byte) : Bool :=
  (bitList (fieldAt bs 12 1) 8).all fun b =>
    s.captured b && padTo 16 (SMap.look [] s.cfg.identity b) == slice bs (88 + 24 * b) 16

/-- The groups and their K of a bond section's records; the first argument bounds them. -/
def bondRecords : Nat → List Byte → List (Nat × Nat)
  | 0, _ => []
  | _, [] => []
  | f + 1, bs =>
    let k := fieldAt bs 1 1
    (fieldAt bs 0 1, k) :: bondRecords f (bs.drop (8 + 512 * k))

/-- The bond records match: each active group with its K in force (R250). -/
def State.bondMatches (s : State) (bs : List Byte) : Bool :=
  bondRecords bs.length bs == s.activeGroups.map fun g => (g, (s.grp g).k.toNat)

/-- Loads the flip-flop shadows of a brick. -/
def loadFfs (n : Fin 8) (bs : List Byte) (s : State) : State :=
  (List.range 25600).foldl (fun s slab =>
    let v := fieldAt bs (64 * slab) 64
    (List.range 512).foldl (fun s j =>
      let (x, f) := courseFf n (slab % 160) (slab / 160) j
      let c := s.leCfg x
      s.setLe x fun l => if f then { l with sh1 := c.init1 != bitAt v j } else { l with sh0 := c.init0 != bitAt v j }) s) s

/-- Loads the shadows of a seam's registers. -/
def loadSeam (k : Fin 10) (bs : List Byte) (s : State) : State :=
  ((seamGroups k).zipIdx).foldl (fun s p =>
    let m := BitVec.ofNat 32 (s.groupField p.1 0 32)
    let old := SMap.look 0 s.fab.seamShadow p.1.key
    let v := BitVec.ofNat 32 (fieldAt bs (4 * p.2) 4)
    { s with fab.seamShadow := SMap.put 0 s.fab.seamShadow p.1.key ((old &&& ~~~m) ||| (v &&& m)) }) s

/-- Writes the memory-mode LUTs of a brick directly. -/
def loadLuts (n : Fin 8) (bs : List Byte) (s : State) : State :=
  let ms := bitList (fieldAt bs 0 3200) 25600
  (ms.zipIdx).foldl (fun s p =>
    ((courseLes n p.1).zipIdx).foldl (fun s q =>
      if s.isMemory q.1 then s.putLeMem q.1 (BitVec.ofNat 64 (fieldAt bs (3200 + 2048 * p.2 + 8 * q.2) 8)) else s) s) s

/-- Writes the slabs of a section: `o` runs over the records. -/
def loadSlabs (n : Fin 8) (bs : List Byte) (bad : Nat) : List Nat → Nat → State → State
  | [], _, s => s
  | k :: ks, o, s =>
    let p := bitAt bad k
    let map := if p then fieldAt bs (o + 16384) 2048 else 0
    let data := (List.range 16384).map fun i => (true, nth 0 bs (o + i), bitAt map i)
    loadSlabs n bs bad ks (o + 16384 + if p then 2048 else 0) (windowWrite n (16384 * k) data s)

/-- Loads the fold units from a bond section (R250): `beat` is the recorded beat; a row from before beat 1 is zeros. -/
def loadBond (beat : Nat) : Nat → List Byte → State → State
  | 0, _, s => s
  | _, [], s => s
  | f + 1, bs, s =>
    let g := fieldAt bs 0 1
    let k := fieldAt bs 1 1
    let rows := ((List.range k).filter fun r => decide (k ≤ beat + r)).map fun r =>
      (BitVec.ofNat 64 (beat + 1 + r - k), slice bs (8 + 512 * r) 512)
    loadBond beat f (bs.drop (8 + 512 * k)) (s.setGrp g fun x => { x with incoming := rows, rxBeat := BitVec.ofNat 64 beat })

/-- Loads one section: the slabs and the fold units only where the restore asks for them. -/
def loadSection (slabs domain : Bool) (beat : Nat) (kind index : Nat) (bs : List Byte) (s : State) : State :=
  match kind with
  | 0 => loadFfs (Fin.ofNat 8 index) bs s
  | 1 => loadSeam (Fin.ofNat 10 index) bs s
  | 2 => loadLuts (Fin.ofNat 8 index) bs s
  | 3 =>
    if slabs then
      loadSlabs (Fin.ofNat 8 index) bs (fieldAt bs 3200 3200) (bitList (fieldAt bs 0 3200) 25600) 6400 s
    else s
  | 4 => if domain then loadBond beat bs.length bs s else s
  | _ => s

/-- An asynchronous reset line of a flip-flop is asserted, by its source or by its startup_hold (03 R83, R85). -/
def State.asyncReset (s : State) (x : LeAddr) (ff1 : Bool) : Bool :=
  let c := s.leCfg x
  let t := s.tileCfg x.tileAddr
  let sel := if ff1 then c.rst1 else c.rst0
  let line (k : Nat) (hold : Bool) : Bool := lineLevel hold (s.leStage x) (s.levelOr (s.freeVal.getLsbD k) (.sink x.tileAddr (176 + k)))
  (sel == 1 && t.aAsync && line 0 t.aHold) || (sel == 2 && t.bAsync && line 1 t.bHold)

/-- The restore strobe (R228): every flip-flop and seam register of the checkpoint's bricks takes its shadow, but for a
flip-flop whose asynchronous reset line is asserted, which takes its reset value (03 T3.6). -/
def restoreStrobe (mask : Nat) (s : State) : State :=
  let les := SMap.mapAll {} s.fab.les fun k x =>
    if bitAt mask (k / 6553600) then { x with ff0 := x.sh0, ff1 := x.sh1 } else x
  let seams := seamsIn mask
  let regs := ((s.fab.seamShadow.map (·.1)) ++ s.fab.seamRegs.map (·.1)).foldl (fun m k =>
    if seams.any fun q => q.val == (groupOfKey k).seam.val then SMap.put 0 m k (SMap.look 0 s.fab.seamShadow k) else m) s.fab.seamRegs
  resetFfs (fun n _ _ => bitAt mask n) s.asyncReset { s with fab := { s.fab with les := les, seamRegs := regs } }

end Sys2Proof.Machine
end

