-- ==== Sys2Proof/Machine/CapRun.lean ====
section
/-!
DEFINITION. Captures, restores, run control, trace and triggers as they run (07 R212 to R251): what commands, bond
operations and events share.
-/
namespace Sys2Proof.Machine
open Sys2Proof

/-! ### Outcomes (T7.11, R254, R255, R259) -/

/-- Records the outcome of a capture or restore in CAP_LAST. -/
def capOutcome (restore : Bool) (status : BitVec 16) (cause : Nat) (s : State) : State :=
  { s with cap := { s.cap with lastStatus := status, lastCause := BitVec.ofNat 8 cause, lastRestore := restore } }

/-- The part's own share of a command is done: a domain operation awaits the other members' reports (R247). -/
def finishShare (domain : Bool) (port : Fin 8) (source tag status : BitVec 16) (data : List Byte) (s : State) : State :=
  if domain then updEntry port source tag (fun c => { c with work := .domain status data }) s
  else reach port source tag status data s

/-- CAP_EDGES and the current beat. -/
def State.runData (s : State) : List Byte := leBytes 8 s.cap.edges.toNat ++ leBytes 8 s.bond.beat.toNat

/-- The CAP_CLOCK_RUNs that `p` selects have reached their state: they end, a domain's share with the status at hand. -/
def endRun (p : RunCmd → Bool) (status : BitVec 16) (s : State) : State :=
  let due := s.cap.runCmds.filter p
  let s := syncOp { s with cap.runCmds := s.cap.runCmds.filter fun c => !p c }
  due.foldl (fun s c => finishShare c.seq.isSome c.port c.source c.tag status s.runData s) s

/-- Run control has stopped the DUT lines: every CAP_CLOCK_RUN that awaits its state ends. -/
def runStopped (s : State) : State := endRun (fun _ => true) Status.ok (stopDut s)

/-- The lines of a new mask and run line, and CAP_EDGES at 0 (T7.9 op 6). -/
def setMask (mask : W64) (line : BitVec 6) (s : State) : State :=
  { s with cap := { s.cap with dutLines := mask, runLine := line, edges := 0, stopped := s.cap.stopped &&& mask } }

/-- Op 6 may act: every line of the old and new masks is stopped, or no image is loaded (R245). -/
def State.maskFree (s : State) (mask : W64) : Bool :=
  s.cfg.loaded == 0 || (s.cap.dutLines ||| mask) &&& ~~~s.cap.stopped == 0

/-- Ports whose FIFOs hold something (R223). -/
def State.busyPorts (s : State) : Nat :=
  (s.fab.ports.filter fun e => !e.2.tq.isEmpty || !e.2.ir.isEmpty).length

/-- The DUT lines count as stopped: by run control, or by a frozen, held or halted domain (R222, 08 R290). -/
def State.linesStopped (s : State) : Bool :=
  s.cap.allStopped || s.frozen.getLsbD 6 || s.bond.state == .frozen || s.bond.state == .held || s.bond.state == .halted

/-- What makes a capture or restore complete with BAD_STATE: its cause (T7.11), 0 where the part is no domain
member. Another capture that awaits its edge counts as busy (assumption log 55). -/
def State.capBlocked (s : State) (scope : Nat) : Option Nat :=
  if s.cfg.loaded == 0 || !s.cfg.held.isEmpty then some 11
  else if s.loadUnderWay || s.cap.phase != .idle || s.fab.repairing then some 2
  else if scope = 1 && !s.isMember then some 0
  else none

/-- The capture edge is reached, or the lines are stopped already: the strobe, and what the header will say of this instant.
The lines of a light capture stay paused until DUT_RESTART (R219), those of a full one until its slabs have drained (R220);
resume leaves them stopped. -/
def strikeCapture (t : Take) (s : State) : State :=
  let noEdge := s.linesStopped
  let running := s.cap.dutLines &&& ~~~s.cap.stopped
  let c : Capture :=
    { take := t, noEdge, incoherent := s.incoherent, time := BitVec.ofNat 64 s.time, edge := s.cap.edges
      beat := if s.isMember then s.bond.beat else 0, runLine := s.cap.runLine, dutLines := s.cap.dutLines
      busyPorts := BitVec.ofNat 32 s.busyPorts, key := s.sealKey, rows := s.bondRows }
  let s := strobe s
  redomain <| syncOp <| keepEdges (fun (s : State) => { s with cap := { s.cap with
    capture := some c, armed := if s.cap.armed = some t then none else s.cap.armed, drain := 0
    phase := if t.full then .fullDrain else if noEdge || t.resume then .lightDrain else .pause
    paused := if noEdge || (t.resume && !t.full) then 0 else running
    stopped := if t.resume && !t.full then s.cap.dutLines else s.cap.stopped } }) s

/-- A capture is taken (R218 to R222): its strobe, then its drain, which begins with the header's valid word at 0 (assumption
log 81). -/
def takeCapture (t : Take) (s : State) : State :=
  let (st, n, s) := storeCounted 3 t.area.toNat (leBytes 4 0) (strikeCapture t s)
  let s := { s with cap.drain := BitVec.ofNat 64 n }
  if st = 0 then s else captureAbort 10 s

/-- The first edge after a light capture's pause (T7.2). -/
def endLightPause (s : State) : State :=
  redomain { s with cap := { s.cap with paused := 0, phase := .lightDrain } }

/-- The lines of a full capture go on when its slabs have drained, or stay stopped (R220). -/
def endPause (resume : Bool) (s : State) : State :=
  redomain { s with cap := { s.cap with stopped := if resume then s.cap.dutLines else s.cap.stopped, paused := 0 } }

/-! ### Domain operations as they start (R247 to R249, 08 R280, R281) -/

/-- The kinds of domain operation, by the code the model gives each (assumption log 47); `operand`, low or high, comes ahead of
an operation that needs 64 bits more than its argument; `beatRead` tells the beat of the checkpoint that its origin restores. -/
inductive OpKind where
  | stop | capture | restart | runTo | restore | trigger | arm | disarm | operand (high : Bool) | mask | beatRead
deriving DecidableEq, Repr

/-- The kind of a code. -/
def opKind (c : BitVec 8) : Option OpKind :=
  match c.toNat with
  | 1 => some .stop | 2 => some .capture | 3 => some .restart | 5 => some .runTo | 6 => some .restore | 7 => some .trigger
  | 8 => some .arm | 9 => some .disarm | 10 => some (.operand false) | 11 => some (.operand true) | 12 => some .mask
  | 13 => some .beatRead
  | _ => none

/-- The beat a domain operation requested now acts at the end of: D beats on, or at once while the beat line is
stopped (R248, 08 R280). -/
def State.soonest (s : State) : W64 :=
  if s.cap.stopped.getLsbD s.bond.beatLine.toNat then s.bond.beat else s.bond.beat + 1 + s.bond.dist.zeroExtend 64

/-- The capture that another member's operation asks of this part (assumption log 47): no entry answers to it. -/
def State.peerTake (s : State) (o : DomOp) : Take :=
  { port := 6, source := 0xFFFF, tag := o.opSeq, full := o.arg.getLsbD 30, domain := true, resume := o.arg.getLsbD 31
    at_ := none, area := BitVec.ofNat 64 (o.arg.toNat % 2 ^ 30 * 4096), areaLength := SMap.look 0 s.bond.opArg o.origin.toNat }

/-- The restore that another member's operation asks of this part. -/
def peerRestore (o : DomOp) : Restore :=
  { port := 6, source := 0xFFFF, tag := o.opSeq, slabs := o.arg.getLsbD 30, run := o.arg.getLsbD 31
    domain := true, area := BitVec.ofNat 64 (o.arg.toNat % 2 ^ 30 * 4096) }

/-- The address and the two flags of an operation's argument (assumption log 47). -/
def areaArg (area : W64) (a b : Bool) : W32 := BitVec.ofNat 32 (area.toNat / 4096 + b2n a * 2 ^ 30 + b2n b * 2 ^ 31)

/-- The area takes the capture, which a member checks for itself (R233). -/
def State.areaTakes (s : State) (t : Take) : Bool :=
  t.area.toNat < s.dram.installed.toNat && s.requiredLength t.full ≤ t.areaLength.toNat

/-- The operation is this part's own. -/
def State.ownOp (s : State) (o : DomOp) : Bool := o.origin.toNat == s.bond.device.toNat

/-- A capture or restore belongs to an operation: to this part's own, or to another member's by its op_seq. -/
def State.opOwns (s : State) (o : DomOp) (port : Fin 8) (source tag : BitVec 16) : Bool :=
  let peer : Bool := port == 6 && source == 0xFFFF
  if s.ownOp o then !peer else peer && tag == o.opSeq

/-! ### Drains (R220, R221) -/

/-- The drain ends: the sections, then the header, then the valid word reach DRAM; an access error aborts (T7.4). -/
def drainDone (s : State) : State :=
  match s.cap.capture with
  | none => s
  | some c =>
    if s.cap.phase ≠ .pause && s.cap.phase ≠ .lightDrain && s.cap.phase ≠ .fullDrain then s
    else
      let t := c.take
      let (secs, s) := checkpointSections c s
      let bytes := encodeCheckpoint c secs s
      let s := s.stepFree
      let (st, n, s) := storeCounted 3 (t.area.toNat + 4) (bytes.drop 4) s
      let s := { s with cap.drain := BitVec.ofNat 64 (4 + n) }
      if st ≠ 0 then captureAbort 10 s
      else
        let (st, _, s) := storeCounted 3 t.area.toNat (leBytes 4 1) s
        if st ≠ 0 then captureAbort 10 s
        else
          let total := bytes.length
          let at_ := if t.domain then c.beat else c.edge
          let s := syncOp { s with cap := { s.cap with capture := none, phase := .idle } }
          let s := capOutcome false Status.ok 0 s
          let s := if (t.full && !c.noEdge) || s.cap.paused != 0 then endPause t.resume s else s
          let s := logEvent 0xA101 [b2n t.full, b2n t.domain, at_.toNat, total] s
          let data := leBytes 8 total ++ leBytes 8 at_.toNat ++ leBytes 8 c.time.toNat ++ leBytes 4 c.busyPorts.toNat ++ leBytes 4 0
          finishShare t.domain t.port t.source t.tag Status.ok data s

/-! ### Restores (R226 to R229, R250) -/

/-- A domain restore sets the beat: the next is one more, and row 0 is presented in it (R250, 08 R275). -/
def State.setBeat (s : State) (beat : Nat) : State :=
  let b := BitVec.ofNat 64 beat
  { s with bond := { s.bond with
    beat := b, txBeat := b
    groups := SMap.mapAll {} s.bond.groups fun _ x =>
      if x.use then
        (if s.bond.pipelined then { x with rxBeat := b }.present beat else { x with rxBeat := b, incoming := [] })
      else x } }

/-- Bytes of the checkpoint are fetched and counted. -/
def restoreFetch (a n : Nat) (s : State) : BitVec 4 × List Byte × State :=
  let (st, bs, s) := fetchDram 3 0 a n s
  (st, bs.map (·.1), { s with cap.drain := s.cap.drain + BitVec.ofNat 64 bs.length })

/-- The units before a stored section of a directory. -/
def unitsBefore (sealed : Bool) (ds : List DirEntry) : Nat :=
  if sealed then (ds.map fun d => (d.length + 65551) / 65552).sum else 0

/-- One section is read and opened, the first of its units numbered `u`: none where the access fails (10) or a tag is wrong (6). -/
def readSection (r : Restore) (d : DirEntry) (u : Nat) (s : State) : (Nat ⊕ List Byte) × State :=
  let (st, raw, s) := restoreFetch (r.area.toNat + d.offset) d.length s
  if st ≠ 0 then (.inl 10, s)
  else match r.key with
    | some (k, _) => match openBody k (slice r.head 64 12) raw u with | some b => (.inr b, s) | none => (.inl 6, s)
    | none => (.inr raw, s)

/-- Reads the sections of a directory, with the number of the first unit of each. -/
def readSections (r : Restore) : List DirEntry → Nat → State → (Nat ⊕ List (DirEntry × List Byte)) × State
  | [], _, s => (.inr [], s)
  | d :: ds, u, s =>
    match readSection r d u s with
    | (.inl c, s) => (.inl c, s)
    | (.inr b, s) =>
      match readSections r ds (u + unitsBefore r.key.isSome [d]) s with
      | (.inl c, s) => (.inl c, s)
      | (.inr rest, s) => (.inr ((d, b) :: rest), s)

/-- Step 4 of R226 in a domain: the bond section lists each active group with its K; exact wiring has none (R250). -/
def bondCheck (r : Restore) (s : State) : Option (BitVec 16 × Nat) × State :=
  let dir := dirOf r.head
  match dir.find? (·.kind == 4) with
  | none => (if s.bond.pipelined then some (Status.badState, 4) else none, s)
  | some d =>
    let u := 1 + unitsBefore r.key.isSome (dir.takeWhile (· != d))
    match readSection r d u s with
    | (.inl 10, s) => (some (s.freeStatus, 10), s)
    | (.inl c, s) => (some (Status.badParam, c), s)
    | (.inr b, s) => (if s.bond.pipelined && s.bondMatches b then none else some (Status.badState, 4), s)

/-- The header and the directory of a checkpoint are read and checked (R226); `areaLen` is the area's. -/
def readHeader (r : Restore) (areaLen : Nat) (s : State) : ((BitVec 16 × Nat) ⊕ Restore) × State :=
  let a := r.area.toNat
  if s.dram.installed.toNat < a + areaLen || areaLen < 512 then (.inl (Status.badParam, 1), s)
  else
    let (st, h, s) := restoreFetch a 512 s
    if st ≠ 0 then (.inl (s.freeStatus, 10), s)
    else match headerWrong areaLen h with
      | some e => (.inl e, s)
      | none =>
        let (st, d, s) := restoreFetch (a + 512) (dirEnd h - 512) s
        let head := h ++ d
        if st ≠ 0 then (.inl (s.freeStatus, 10), s)
        else match s.headerDenied s.sealKey head with
          | some e => (.inl e, s)
          | none =>
            if !s.bricksMatch head then (.inl (Status.badState, 4), s)
            else
              let r := { r with head, key := s.sealKey, mask := fieldAt head 12 1, full := r.slabs && fieldAt head 6 1 == 1 }
              match (if r.domain then bondCheck r s else (none, s)) with
              | (some e, s) => (.inl e, s)
              | (none, s) => (.inr r, s)

/-- A restore ends without its strobe. -/
def restoreFails (status : BitVec 16) (cause : Nat) (s : State) : State :=
  match s.cap.restore with
  | none => s
  | some r =>
    let s := syncOp { s with cap := { s.cap with restore := none, phase := .idle } }
    let s := logEvent 0xA104 [cause, s.cap.drain.toNat] (capOutcome true status cause s)
    finishShare r.domain r.port r.source r.tag status (leBytes 8 s.cap.drain.toNat) s

/-- The part tells the other members which beat its checkpoint holds, or that it has none to restore (R250). -/
def tellBeat (b : Option W64) (s : State) : State :=
  let o : DomOp := { op := 13, origin := s.bond.device.zeroExtend 8, opSeq := s.bond.opSeq
                     arg := if b.isSome then 0 else 1, target := b.getD 0 }
  let s := learnOp none o { s with bond := { s.bond with opSeq := s.bond.opSeq + 1 } }
  { s with bond := { s.bond with ops := s.bond.ops.filter (· != o) } }

/-- A restore begins (R226): its header is checked, then its sections load. -/
def beginRestore (r : Restore) (areaLen : Nat) (s : State) : State :=
  let s := syncOp { s with cap := { s.cap with phase := .restoreLoading, drain := 0, restore := some r, peerBeats := [] } }
  let tells (b : Option W64) (s : State) : State := if r.domain then tellBeat b s else s
  match readHeader r areaLen s with
  | (.inl (st, cause), s) => if cause = 10 then captureAbort 10 (tells none s) else restoreFails st cause (tells none s)
  | (.inr r, s) => tells (some (BitVec.ofNat 64 (fieldAt r.head 24 8))) { s with cap.restore := some r }

/-- A member of the domain has not told yet which beat its checkpoint holds. A part of a domain that a bond fault has frozen
completes its own share without it (R251; assumption log 47). -/
def State.beatsAwaited (s : State) : Bool :=
  (s.bond.state == .stopped || s.bond.state == .running) && (bitList s.bond.members.toNat 64).any fun d => d != s.bond.device.toNat && !(s.cap.peerBeats.any fun p => p.1.toNat == d)

/-- Every section has loaded and the strobe occurs, or the restore fails (R227, R229). A domain's restore awaits the beat of
every member, and fails where one is another beat (R250). -/
def restoreDone (s : State) : State :=
  match s.cap.restore with
  | none => s
  | some r =>
    let beat := fieldAt r.head 24 8
    if r.domain && s.beatsAwaited then s
    else if r.domain && (s.cap.peerBeats.any fun p => p.2.any (·.toNat != beat)) then restoreFails Status.badState 4 s
    else match readSections r (dirOf r.head) 1 s with
      | (.inl 10, s) => captureAbort 10 s
      | (.inl _, s) => restoreFails Status.badParam 6 (mixedMemories r s)
      | (.inr secs, s) =>
        let s := secs.foldl (fun s x => loadSection r.full r.domain beat x.1.kind x.1.index x.2 s) s
        let s := (restoreStrobe r.mask s).stepFree
        let s := if r.domain then s.setBeat beat else s
        let s := capOutcome true Status.ok 0 (syncOp { s with cap := { s.cap with restore := none, phase := .idle } })
        let s := if r.run then startDut s else s
        let s := logEvent 0xA103 [b2n r.slabs + 2 * b2n r.run, if r.domain then beat else fieldAt r.head 32 8] s
        finishShare r.domain r.port r.source r.tag Status.ok (leBytes 8 s.cap.drain.toNat) s

/-! ### Domain operations as they act (R247 to R249, 08 R280, R281) -/

/-- The armed capture that unit `u` of some member asked every member to take; without one, it is missed (R249). -/
def takeArmed (u : Nat) (s : State) : State :=
  match s.cap.armed with
  | some t =>
    if t.domain && s.cap.phase == .idle then takeCapture t s else s.setTrig u fun x => { x with captureMissed := true }
  | none => s.setTrig u fun x => { x with captureMissed := true }

/-- The part acts on a domain operation. -/
def actOp (o : DomOp) (s : State) : State :=
  match opKind o.op with
  | some .stop => runStopped s
  | some .capture =>
    match s.cap.capture with
    | some c =>
      if s.cap.phase = .awaitEdge && s.opOwns o c.take.port c.take.source c.take.tag then takeCapture c.take s else s
    | none =>
      let t := s.peerTake o
      if !s.ownOp o && (s.capBlocked 1).isNone && s.areaTakes t then takeCapture t s else s
  | some .restart => endRun (·.op == 1) Status.ok (startDut s)
  | some .runTo =>
    if o.target.toNat ≤ s.bond.beat.toNat then runStopped s
    else syncOp (startDut { s with cap.stopBeat := some o.target })
  | some .restore =>
    let r := peerRestore o
    if !s.ownOp o && (s.capBlocked 1).isNone && s.cap.allStopped then
      beginRestore r (s.dram.installed.toNat - r.area.toNat) s
    else if s.ownOp o then s else tellBeat none s
  | some .trigger => takeArmed (o.arg.toNat % 16) s
  | some .arm =>
    let t := s.peerTake o
    if !s.ownOp o && s.cap.armed.isNone && (s.capBlocked 1).isNone && s.areaTakes t then { s with cap.armed := some t } else s
  | some .disarm => if s.ownOp o then s else disarmCapture s
  | some .mask =>
    let m := SMap.look 0 s.bond.opArg o.origin.toNat
    if s.maskFree m && !s.fab.repairing then endRun (·.op == 6) Status.ok (setMask m (BitVec.ofNat 6 o.arg.toNat) s)
    else endRun (·.op == 6) Status.badState s
  | some (.operand _) | some .beatRead => s
  | none => s

/-- Operations that act at once while the beat line is stopped. -/
def opImmediate (o : DomOp) : Bool :=
  match opKind o.op with
  | some .restart | some .runTo | some .restore | some .mask | some .arm | some .disarm => true
  | _ => false

/-- The order of the operations of one beat: a capture is armed before a trigger takes it, and the lines stop last. -/
def opRank (o : DomOp) : Nat :=
  match opKind o.op with
  | some .arm | some .disarm => 0
  | some .stop | some .runTo => 2
  | _ => 1

/-- Of the operations of one kind at one target, the lowest origin's takes effect (08 R281). -/
def dueOps (ops : List DomOp) : List DomOp :=
  ops.filter fun o => !(ops.any fun p => p.op == o.op && p.origin.toNat < o.origin.toNat)

/-- Commands of an opcode whose share is done complete with a status of the domain. -/
def endShares (opcode status : BitVec 16) (s : State) : State :=
  let due := s.intake.table.filter fun c => c.opcode == opcode && !c.done && (match c.work with | .domain .. => true | _ => false)
  due.foldl (fun s c => finishEntry c.port c.source c.tag status (match c.work with | .domain _ d => d | _ => []) s) s

/-- A capture that waits, drains or is armed, or a restore that loads, gives way to another member's: its coordinator, where
that is this part, completes with BAD_STATE, cause 2. -/
def giveWay (restore : Bool) (opcode : BitVec 16) (own : Bool) (entry : Option (Fin 8 × BitVec 16 × BitVec 16)) (s : State) :
    State :=
  let s := if own then capOutcome restore Status.badState 2 s else s
  match entry with
  | some (p, src, tag) => finishEntry p src tag Status.badState [] (syncOp s)
  | none => if own then endShares opcode Status.badState s else s

/-- An operation loses to another of its kind (08 R281). -/
def opLoses (o : DomOp) (s : State) : State :=
  let own := s.ownOp o
  match opKind o.op with
  | some .capture =>
    match s.cap.capture with
    | some c =>
      let t := c.take
      if s.opOwns o t.port t.source t.tag then
        giveWay false 0x0500 own (some (t.port, t.source, t.tag)) { s with cap := { s.cap with capture := none, phase := .idle } }
      else giveWay false 0x0500 own none s
    | none => giveWay false 0x0500 own none s
  | some .restore =>
    match s.cap.restore with
    | some r =>
      if s.opOwns o r.port r.source r.tag then
        giveWay true 0x0501 own (some (r.port, r.source, r.tag)) { s with cap := { s.cap with restore := none, phase := .idle } }
      else giveWay true 0x0501 own none s
    | none => giveWay true 0x0501 own none s
  | some .arm =>
    match s.cap.armed with
    | some t =>
      if s.opOwns o t.port t.source t.tag then
        giveWay false 0x0500 own (some (t.port, t.source, t.tag)) { s with cap.armed := none }
      else s
    | none => s
  | some .stop | some .restart | some .runTo | some .mask =>
    if !own then s
    else if s.cap.runCmds.any fun c => c.seq == some o.opSeq then
      let due := s.cap.runCmds.filter fun c => c.seq == some o.opSeq
      let s := syncOp { s with cap.runCmds := s.cap.runCmds.filter fun c => c.seq != some o.opSeq }
      due.foldl (fun s c => reach c.port c.source c.tag Status.badState s.runData s) s
    else endShares 0x0505 Status.badState s
  | _ => s

/-- Every operation whose target beat has just ended acts; a capture at the same beat as a stop records the state at the
stop. -/
def actDue (s : State) : State :=
  let due := s.bond.ops.filter fun o => o.target == s.bond.beat
  let s := { s with bond.ops := s.bond.ops.filter fun o => o.target != s.bond.beat }
  let win := dueOps due
  let s := (due.filter fun o => !win.contains o).foldl (fun s o => opLoses o s) s
  let s := [0, 1, 2].foldl (fun s k => (win.filter fun o => opRank o == k).foldl (fun s o => actOp o s) s) s
  match s.cap.stopBeat with
  | some b => if b = s.bond.beat then runStopped s else s
  | none => s

/-- The part acts on an operation while the beat line stands. -/
def actNow (o : DomOp) (s : State) : State :=
  actOp o { s with bond := { s.bond with
    ops := s.bond.ops.filter (· != o), acted := o :: s.bond.acted.filter fun p => !(p.op == o.op && p.target == o.target) } }

/-- An operation becomes known to the part (08 R280). While the beat line is stopped it may act at once; one that has acted so
gives way to a lower origin's of its kind and target (08 R281). -/
def hearOp (from_ : Option Nat) (o : DomOp) (s : State) : State :=
  if s.bond.seenOps.contains (opKey o) then s
  else
    let s := learnOp from_ o s
    let drop (s : State) : State := { s with bond.ops := s.bond.ops.filter (· != o) }
    match opKind o.op with
    | some (.operand high) =>
      let old := SMap.look 0 s.bond.opArg o.origin.toNat
      let v : W64 := if high then old % 2 ^ 32 + o.arg.zeroExtend 64 * 2 ^ 32 else old / 2 ^ 32 * 2 ^ 32 + o.arg.zeroExtend 64
      drop { s with bond.opArg := SMap.put 0 s.bond.opArg o.origin.toNat v }
    | some .beatRead =>
      drop { s with cap.peerBeats := s.cap.peerBeats ++ [(o.origin, if o.arg = 0 then some o.target else none)] }
    | _ =>
      match s.bond.acted.find? fun p => p.op == o.op && p.target == o.target with
      | some p => if o.origin.toNat < p.origin.toNat then actNow o (opLoses p s) else opLoses o (drop s)
      | none =>
        if (opImmediate o || o.target.toNat ≤ s.bond.beat.toNat) && s.cap.stopped.getLsbD s.bond.beatLine.toNat then actNow o s
        else s

/-- The part originates an operation: it takes the next op_seq. -/
def originate (op : BitVec 8) (arg : W32) (target : W64) (s : State) : State :=
  let o : DomOp := { op, origin := s.bond.device.zeroExtend 8, opSeq := s.bond.opSeq, arg, target }
  hearOp none o { s with bond.opSeq := s.bond.opSeq + 1 }

/-- As `originate`, with 64 bits that travel ahead of the operation. -/
def originateWith (v : W64) (op : BitVec 8) (arg : W32) (target : W64) (s : State) : State :=
  originate op arg target
    (originate 11 (BitVec.ofNat 32 (v.toNat / 2 ^ 32)) target (originate 10 (v.truncate 32) target s))

/-- A run-control operation of the domain (R247): the command awaits what the operation, `ahead` op_seqs on, brings about. -/
def originateRun (c : RunCmd) (ahead : BitVec 16) (start : State → State) (s : State) : State :=
  start (syncOp { s with cap.runCmds := s.cap.runCmds ++ [{ c with seq := some (s.bond.opSeq + ahead) }] })

/-- Op 0 of a domain. -/
def originateStop (c : RunCmd) (s : State) : State := originateRun c 0 (fun s => originate 1 0 s.soonest s) s

/-- Op 6 of a domain, its mask ahead of it. -/
def originateMask (c : RunCmd) (mask : W64) (line : BitVec 6) (s : State) : State :=
  originateRun c 2 (fun s => originateWith mask 12 (line.zeroExtend 32) s.soonest s) s

/-! ### Holds (T7.4, R246, 15 R508 to R511, 08 R292) -/

/-- A CAP_CLOCK_RUN of Hold takes effect: op 6 of this part, and ops 0 and 6 of its domain. -/
def holdRun (e : RunCmd × Bool × W64 × BitVec 6) (s : State) : State :=
  let (c, domain, mask, line) := e
  if !domain then
    let s := setMask mask line s
    reach c.port c.source c.tag Status.ok s.runData s
  else if !s.isMember then reach c.port c.source c.tag Status.badState s.runData s
  else if c.op = 0 then originateStop c s
  else originateMask c mask line s

/-- What Hold kept of run control takes effect as the part leaves it (R246). -/
def afterHold (s : State) : State :=
  let waiting := s.cap.afterHold
  let s := waiting.foldl (fun s e => holdRun e s) { s with cap.afterHold := [] }
  if s.cap.stopDue && s.cap.allStopped then runStopped s else s

/-- A PWR_MODE_SET takes effect (15 R508, R511): Dormant is entered once its reply is out; run control that was asked
for in Hold acts when Hold is left (R246). -/
def applyMode (m : ModeCmd) (s : State) : State :=
  if m.mode = .dormant then
    { s with power := { s.power with dormantDue := true, wakeEn := m.wakeEn, rtcMatch := m.rtcMatch } }
  else
    let was := s.power.mode
    let s := setMode m.mode s
    if was = .hold && m.mode ≠ .hold then syncFreeze (afterHold s) else s

/-- The PWR_MODE_SETs that waited take effect in turn (15 R509); what follows a Dormant waits for it in vain. -/
def modesGo : List ModeCmd → State → State
  | [], s => { s with power.modeCmds := [] }
  | m :: ms, s =>
    if s.power.dormantDue then { s with power.modeCmds := m :: ms }
    else
      let s := applyMode m s
      modesGo ms (reach m.port m.source m.tag Status.ok (leBytes 4 s.power.stateWord) s)

/-- A Hold that is due is reached (T7.4). -/
def holdDue (s : State) : State :=
  match s.power.holdDue with
  | some c => if s.cap.draining then s else modesGo s.power.modeCmds (enterHold c s)
  | none => s

/-- A Hold that waited for a drain or restore to end, or for the beat edge of a domain that no longer runs. -/
def heldAfterDrain (s : State) : State := if s.beatsRun then s else holdDue s

/-- The coordinator's commands whose members have not all reported when a resume window ends complete with TIMEOUT (R251); an
own capture that still awaits its beat is dropped with them, one that drains goes on (assumption log 91). -/
def domainTimeouts (s : State) : State :=
  let due := s.intake.table.filter fun c => match c.work with | .domain .. => !c.done | _ => false
  let s := due.foldl (fun s c =>
    let s := if c.opcode = 0x0500 || c.opcode = 0x0501 then capOutcome (c.opcode == 0x0501) Status.timeout 13 s else s
    finishEntry c.port c.source c.tag Status.timeout (match c.work with | .domain _ d => d | _ => []) s) s
  let runs := s.cap.runCmds.filter (·.seq.isSome)
  let s := syncOp { s with cap.runCmds := s.cap.runCmds.filter (·.seq.isNone) }
  let s := runs.foldl (fun s c => reach c.port c.source c.tag Status.timeout s.runData s) s
  let s := match s.cap.capture with
    | some c =>
      if c.take.domain then
        let s := if s.cap.phase = CapPhase.awaitEdge then syncOp { s with cap := { s.cap with capture := none, phase := .idle } } else s
        finishEntry c.take.port c.take.source c.take.tag Status.timeout [] (capOutcome false Status.timeout 13 s)
      else s
    | none => s
  let s := match s.cap.restore with
    | some r => if r.domain then finishEntry r.port r.source r.tag Status.timeout [] (capOutcome true Status.timeout 13 s) else s
    | none => s
  { s with bond.ops := s.bond.ops.filter fun o => !s.ownOp o }

/-- What follows a change of the bond's groups: the timeouts of a domain that has come to be HELD, and a Hold that waited for
its beats. -/
def bondSettle (before s : State) : State :=
  let held := (s.groupsIn .held).any fun g => (before.grp g).state != .held
  heldAfterDrain (if held then domainTimeouts s else s)

/-! ### Trace (R235 to R240) -/

/-- Samples a collector can hold: the block it fills and the 64 KiB buffer, in whole blocks (assumption log 46). -/
def Collector.room (c : Collector) : Nat := 64 * (1 + 65536 / (64 * max 1 (sampleBytes c.taps.length)))

/-- A collector stops by command or trigger; what it holds is still to be written (R239). -/
def Collector.halt (c : Collector) (byTrigger : Bool) : Collector :=
  { c with running := false, flush := !c.samples.isEmpty, postCount := none, byTrigger
           stoppedTrigger := c.stoppedTrigger || byTrigger }

/-- One trace-line edge at a running collector (R236, R239). -/
def traceSample (n : Fin 8) (s : State) : State :=
  let c := s.coll n
  if !c.running || !s.clkActive.getLsbD c.line.toNat then s
  else
    let edges := c.edges + 1
    let full := c.room ≤ c.samples.length
    let smp : Sample :=
      { bytes := s.traceSampleOf n, mark := c.markNext, edge := edges, beat := if s.isMember then s.bond.beat else 0
        lost := c.lostRun }
    let c' : Collector :=
      if full then { c with edges, lost := satAdd c.lost 1, lostRun := c.lostRun + 1, overflow := true }
      else { c with edges, samples := c.samples ++ [smp], lostRun := 0, markNext := false }
    let c' := match c'.postCount with
      | some k => if k ≤ 1 then c'.halt true else { c' with postCount := some (k - 1) }
      | none => c'
    let s := s.setColl n fun _ => c'
    if full && c.lost = 0 then logEvent 0xA110 [n.val, 1] s else s

/-- A trace block as stored (R238). -/
def traceBlock (c : Collector) (xs : List Sample) : List Byte :=
  let first := xs.headD { bytes := [], mark := false, edge := 0, beat := 0, lost := 0 }
  leBytes 4 c.blockSeq.toNat ++ leBytes 1 xs.length ++
  leBytes 1 (b2n (first.lost != 0) + 2 * b2n (c.flush && c.byTrigger)) ++ leBytes 2 0 ++
  leBytes 8 first.edge ++ leBytes 8 first.beat.toNat ++ leBytes 8 (bitsNat (xs.map (·.mark))) ++ leBytes 4 first.lost ++
  List.replicate 28 0 ++ (xs.map (·.bytes)).flatten

/-- Writes bytes to a coping trace store: the brick's trace slabs joined in order. -/
def storeTrace (n off : Nat) (bs : List Byte) (s : State) : State :=
  let slabs := s.traceSlabs n
  (bs.zipIdx).foldl (fun s p =>
    let a := off + p.2
    match slabs[a / 16384]? with
    | some k => s.putCop n k (a % 16384) (MByte.store p.1 false)
    | none => s) s

/-- A full block, or at a stop the partial one, is written to its store (R237, R239). -/
def traceBlockWrite (n : Fin 8) (s : State) : State :=
  let c := s.coll n
  let xs := c.samples.take 64
  if xs.isEmpty || (xs.length < 64 && !c.flush) then s
  else
    let blocks := s.storeBytes n c / c.blockBytes
    let k := c.blockSeq.toNat
    let off := k % max 1 blocks * c.blockBytes
    let bs := traceBlock c xs
    let s := if c.dram then (storeDram 3 (c.base.toNat + off) bs s).2 else storeTrace n off bs s
    let left := c.samples.drop 64
    let fullNow := c.wrap && k + 1 = blocks
    let s := s.setColl n fun c =>
      { c with blockSeq := c.blockSeq + 1, samples := if fullNow then [] else left, flush := c.flush && !left.isEmpty && !fullNow
               running := c.running && !fullNow, stoppedFull := c.stoppedFull || fullNow }
    if fullNow then logEvent 0xA111 [n.val, k + 1] s else s

/-! ### Triggers (R241 to R244, R249) -/

/-- The level of a fabric trigger line, 64 n + l: the net at its course (R242), 0 while the course is isolated (R199). -/
def State.trigLine (s : State) (code : Nat) : Bool :=
  let n : Fin 8 := Fin.ofNat 8 (code / 64)
  let l : Fin 64 := Fin.ofNat 64 code
  s.levelOr (s.freeVal.getLsbD l.val) (.net (trigCourse n l) (.trig l))

/-- The level of a trigger input: fabric lines are the fabric's nets, chained units and the match inputs the part's own, the
rest (engine and probe comparators, TRIG_IN) as observed at the run line. -/
def State.trigInput (s : State) (t : Trigger) (active : List (BitVec 16)) (code : BitVec 16) : Bool :=
  if code = 0x0D00 then s.bond.beat == t.matchVal
  else if code = 0x0D01 then s.cap.edges == t.matchVal
  else if 0x0E00 ≤ code.toNat && code.toNat < 0x0E10 then
    (match (s.trig (code.toNat - 0x0E00)).firedAt with | some e => e + 1 == s.cap.edges | none => false)
  else if code.toNat < 0x200 then s.trigLine code.toNat
  else active.contains code

/-- A sample of a unit's inputs: the combined condition and the place in a sequence (R243). -/
def Trigger.condition (t : Trigger) (lv : List Bool) : Bool × Nat :=
  if t.combine = 0 then (lv.any id, 0)
  else if t.combine = 1 then (!lv.isEmpty && lv.all id, 0)
  else if nth false lv t.seqPos then
    (if t.seqPos + 1 = lv.length then (true, 0) else (false, t.seqPos + 1))
  else (false, t.seqPos)

/-- What a firing asks of the whole domain (R249): a stop, and the capture of each member's armed CAP_TAKE, at the end of beat
B + D. A part that has none of scope 1 armed misses its own. -/
def fireDomain (u : Fin 16) (actions : BitVec 5) (s : State) : State :=
  let target := s.bond.beat + 1 + s.bond.dist.zeroExtend 64
  let s := if actions.getLsbD 1 then originate 7 (BitVec.ofNat 32 u.val) target s else s
  if actions.getLsbD 0 then originate 1 0 target s else s

/-- One run-line edge at a trigger unit (R243): an occurrence is a rise of the condition; the count-th fires. -/
def triggerSample (u : Fin 16) (passed : Nat) (active : List (BitVec 16)) (s : State) : State :=
  let s := countEdges passed s
  let t := s.trig u
  if !t.armed then s
  else
    let lv := (t.inputs.filter (· != 0xFFFF)).map (s.trigInput t active)
    let (cond, pos) := t.condition lv
    let rise := cond && !t.last
    let count := if rise then satAdd t.count 1 else t.count
    let fires := rise && max 1 t.need.toNat ≤ count.toNat
    let s := s.setTrig u fun t =>
      { t with last := cond, seqPos := pos, count, armed := !fires, fired := t.fired || fires, due := fires
               firedAt := if fires then some s.cap.edges else t.firedAt }
    let s := s.stepFree
    if fires then
      let s := logEvent 0xA120 [u.val, s.cap.edges.toNat, s.bond.beat.toNat, t.actions.toNat] s
      if s.isMember then fireDomain u t.actions s else s
    else s

/-- Every running collector changes. -/
def onRunning (f : Collector → Collector) (s : State) : State :=
  { s with cap.collectors := SMap.mapAll {} s.cap.collectors fun _ c => if c.running then f c else c }

/-- Action [1] outside a domain: the armed capture is taken. -/
def triggerCapture (u : Fin 16) (s : State) : State :=
  match s.cap.armed with
  | none => s.setTrig u fun t => { t with captureMissed := true }
  | some t =>
    if s.cap.phase ≠ .idle then s.setTrig u fun t => { t with captureMissed := true }
    else takeCapture t s

/-- A fired unit takes its actions at the third run-line edge after the firing (R244); in a domain actions [0] and [1] are the
domain's (R249). -/
def triggerActions (u : Fin 16) (s : State) : State :=
  let t := s.trig u
  if !t.due then s
  else
    let e := (t.firedAt.getD 0) + 3
    let s := s.setTrig u fun t => { t with due := false }
    let s := { s with cap.edges := if s.cap.edges.toNat < e.toNat then e else s.cap.edges }
    let a := t.actions
    let s := if a.getLsbD 2 then onRunning (fun c => { c with markNext := true }) s else s
    let s := if a.getLsbD 3 then { s with cap := { s.cap with trigOut := s.cap.trigOut + 1, trigOutAt := s.time + 1 } } else s
    let s := if a.getLsbD 4 then
        onRunning (fun c => if t.postCount = 0 then c.halt true else { c with postCount := some t.postCount.toNat }) s
      else s
    if s.isMember then s
    else
      let s := if a.getLsbD 1 then triggerCapture u s else s
      if a.getLsbD 0 then runStopped s else s

end Sys2Proof.Machine
end

