-- ==== Sys2Proof/Machine/HubRegs.lean ====
section
/-!
DEFINITION. The hub control space (00 R7, R8, R600): the register blocks DEV, CFG, SEC, ACL, GST and DBG, the
decode of a register offset into its block, the pairs with their latches, and what a write does under each access
code.
-/
namespace Sys2Proof.Machine
open Sys2Proof

/-! ### DEV (01 T1.6) -/

/-- DEV_REVISION. -/
def Part.revision (p : Part) : Nat := p.stepping.toNat + p.speedGrade.toNat * 2 ^ 8 + b2n p.guestVariant * 2 ^ 16

/-- DEV_FAMILY. -/
def Part.family (p : Part) : Nat := if p.guestVariant then 0x03534D4C else 0x03524D4C

/-- DEV_DIE_PRESENT: fitted and not held (T1.9, 01 R34). -/
def State.diePresent (s : State) : Nat :=
  bitsNat ((List.range 26).map fun i => i == 24 || (!s.dieAbsent i && (s.die i).state != .reset))

/-- DEV_STRAP_FAULT (01 R17, R19, R29). -/
def State.strapFault (s : State) : Nat :=
  bitsNat ((List.range 26).map fun i => (s.die i).invalid || (s.die i).duplicate || (s.die i).trainFailed)

/-- Reads a register of the DEV block. -/
def State.readDev (s : State) (off : Nat) : Nat :=
  if off = 0x00 then s.part.family
  else if off = 0x04 then s.part.revision
  else if off = 0x08 then s.part.fwVersion.toNat
  else if off = 0x10 then s.part.uid.toNat % 2 ^ 32
  else if off = 0x14 then s.part.uid.toNat / 2 ^ 32
  else if off = 0x20 then s.diePresent
  else if off = 0x24 then s.strapFault
  else if 0x30 ≤ off && off < 0x48 then fieldAt s.dev.strap (off - 0x30) 4
  else if off = 0x48 then (nth 0 s.dev.strap 24).toNat
  else 0

/-! ### CFG (06 T6.5) -/

/-- CFG_STATE.phase (T6.6). -/
def State.cfgPhase (s : State) : Nat :=
  if s.bootRuns then 6
  else match s.cfg.load with
    | none => 0
    | some l => match l.phase with
      | .awaitHeader => 1 | .writing => 2 | .verifying => 3 | .releasing => 4 | .failed => 5

/-- CFG_STATE. -/
def State.cfgState (s : State) : Nat :=
  s.cfgPhase + s.heldBricks * 2 ^ 8 + s.cfg.loaded.toNat * 2 ^ 16 +
  (match s.cfg.session with | some n => n.port.val * 2 ^ 28 + 2 ^ 31 | none => 0)

/-- Reads a register of the CFG block. -/
def State.readCfg (s : State) (off : Nat) : Nat :=
  let c := s.cfg
  if off = 0x00 then s.cfgState
  else if off = 0x04 then c.releaseStep.toNat
  else if off = 0x08 then s.cfgLast
  else if off = 0x0C then c.bootPins.toNat
  else if off = 0x10 then c.frames.toNat
  else if off = 0x14 then c.bytes.toNat % 2 ^ 32
  else if off = 0x18 then c.bytes.toNat / 2 ^ 32
  else if off = 0x1C then c.dropped.toNat
  else if 0x20 ≤ off && off < 0x40 then (SMap.look 0 c.versions ((off - 0x20) / 4)).toNat
  else if off = 0x40 then c.region.toNat
  else if off = 0x44 then c.regionBrick.toNat
  else 0

/-! ### SEC, ACL, GST (14 T14.13 to T14.16) -/

/-- SEC_MODE. -/
def State.secMode (s : State) : Nat :=
  (match s.dbgAxis with | .detached => 0 | .attached => 1 | .halted => 2 | .capture => 3) * 2 ^ 24 +
  (match s.sec.stored with | .blank => 0 | .opened => 1 | .sealed => 2) * 2 ^ 26 +
  (match s.secAxis with | .blank => 0 | .opened => 1 | .sealed => 2 | .quarantine => 3) * 2 ^ 28 +
  s.power.mode.code * 2 ^ 30

/-- SEC_ALARM. -/
def Sec.alarmWord (x : Sec) : Nat :=
  x.latching.toNat + x.seen.toNat * 2 ^ 8 + x.firstCause.toNat * 2 ^ 24 + b2n x.latch * 2 ^ 31

/-- SEC_SLOTS. -/
def Sec.slots (x : Sec) : Nat := bitsNat ((List.range 24).map fun i => !(SMap.look [] x.keys i).isEmpty)

/-- SEC_SESSION. -/
def Sec.sessionWord (x : Sec) : Nat :=
  match x.session with
  | none => 0
  | some n => n.source.toNat % 256 + n.port.val * 2 ^ 27 + b2n n.isImplicit * 2 ^ 30 + 2 ^ 31

/-- The key_id in force. -/
def Sec.keyId (x : Sec) : Nat := match x.session with | none => 0 | some n => n.keyId.toNat

/-- Reads a register of the SEC block. -/
def State.readSec (s : State) (off : Nat) : Nat :=
  let x := s.sec
  match off with
  | 0x00 => s.secMode
  | 0x04 => x.alarmWord
  | 0x08 => x.slots
  | 0x0C => x.policy.toNat
  | 0x10 => x.sessionWord
  | 0x14 => x.keyId % 2 ^ 32
  | 0x18 => x.keyId / 2 ^ 32
  | 0x20 => x.lastUnit.toNat + x.disagreements.toNat * 2 ^ 16
  | _ => 0

/-- Reads a register of the ACL block. -/
def State.readAcl (s : State) (off : Nat) : Nat :=
  let x := s.sec
  if off = 0x00 then x.sweeps.toNat
  else if off = 0x04 then x.lastDeny.toNat % 2 ^ 32
  else if off = 0x08 then x.lastDeny.toNat / 2 ^ 32
  else if off = 0x0C then x.lastDenyMaster.toNat
  else if 0x100 ≤ off && off < 0x540 then s.aclWord ((off - 0x100) / 4)
  else 0

/-- Entry `i` of the guest table (14 R486). -/
def State.gstEntry (s : State) (i : Nat) : AclEntry :=
  match SMap.look none s.gst.table i with
  | some e => e
  | none => if i = 0 && s.gst.tableOpen then openEntry else {}

/-- GST_STATE. -/
def State.gstState (s : State) : Nat :=
  if !s.part.guestVariant || !s.dev.role then 0
  else
    ((List.range 64).filter fun i => (s.gstEntry i).valid).length + (if s.gst.isolated then 2 ^ 29 else 2 ^ 28)

/-- Reads a register of the GST block. -/
def State.readGst (s : State) (off : Nat) : Nat :=
  let g := s.gst
  match off with
  | 0x00 => s.gstState
  | 0x04 => g.rate.toNat
  | 0x08 => g.burst.toNat
  | 0x0C => g.violations.toNat
  | 0x10 => g.absorbed.toNat
  | 0x14 => g.stallUs.toNat
  | 0x18 => g.lastViol.toNat % 2 ^ 32
  | 0x1C => g.lastViol.toNat / 2 ^ 32
  | _ => 0

/-! ### DBG (16 T16.5) -/

/-- DBG_PORT. -/
def Dbg.portWord (d : Dbg) : Nat :=
  if d.twoWire then 2 ^ 31 else d.instr.toNat + b2n d.testActive * 2 ^ 29 + 2 ^ 30

/-- Reads a register of the DBG block. -/
def State.readDbg (s : State) (off : Nat) : Nat :=
  let d := s.dbg
  if off = 0x00 then d.freeze.toNat
  else if off = 0x04 then s.frozen.toNat
  else if off = 0x08 then d.portWord
  else if off = 0x0C then d.accesses.toNat
  else if 0x20 ≤ off && off < 0x38 then bitsAt d.xhalt.toNat (8 * (off - 0x20)) 32
  else 0

/-! ### Registers by offset in the space -/

/-- Reads the register at offset `o` of the hub control space as it stands. -/
def State.readHubReg (s : State) (o : Nat) : Nat :=
  let off := o % 2 ^ 16
  match o / 2 ^ 16 with
  | 0x00 => s.readDev off
  | 0x01 => s.readCmd off
  | 0x02 => s.readCfg off
  | 0x03 => s.readCap off
  | 0x04 => s.readFab off
  | 0x05 => s.readCpg off
  | 0x06 => s.readBnd off
  | 0x07 => s.readLns off
  | 0x08 => s.readGrt off
  | 0x09 => s.readEngHub off
  | 0x0A => s.readDrc off
  | 0x0B => s.readMek off
  | 0x0C => s.readSec off
  | 0x0D => s.readAcl off
  | 0x0E => s.readGst off
  | 0x0F => s.readPwr off
  | 0x10 => s.readClk off
  | 0x11 => s.readDbg off
  | 0x12 => s.readEvr off
  | 0x13 => s.readSvp off
  | _ => 0

/-- The low words of the pairs (00 R7), by block. -/
def pairLow (o : Nat) : Bool :=
  let off := o % 2 ^ 16
  match o / 2 ^ 16 with
  | 0x00 => off = 0x10
  | 0x02 => off = 0x14
  | 0x03 => off = 8 || off = 0x10 || off = 0x18 || off = 0x20
  | 0x04 => off = 0x104 || off = 0x110
  | 0x05 => 0x100 ≤ off && off < 0x200 && off % 32 = 0x10
  | 0x06 => off = 8 || off = 0x10 || (0x500 ≤ off && off < 0x600 && off % 16 = 4)
  | 0x07 => (0x40 ≤ off && off < 0x80 && (off % 32 = 8 || off % 32 = 16)) ||
      (0x1000 ≤ off && off < 0x5000 && (off % 64 = 0x10 || off % 64 = 0x18))
  | 0x08 => off = 4 || off = 0x208 || off = 0x210 || off = 0x220
  | 0x0A => off = 0 || (0x100 ≤ off && off < 0x300 && off % 64 = 0x18)
  | 0x0B => 0x100 ≤ off && off < 0x300 && (off % 64 = 0x0C || off % 64 = 0x14 || off % 64 = 0x20)
  | 0x0C => off = 0x14
  | 0x0D => off = 4
  | 0x0E => off = 0x18
  | 0x0F => off = 0x20
  | _ => false

/-- The reset value of a pair's high word (00 R7): DEV_UID_HI as fused, CAP_DUT_LINES_HI all 1, 0 elsewhere. FAB_GRP_DATA_HI
has no reset value in 04 T4.13; the model gives it 0 (DESIGN CHOICE, assumption log 74). -/
def State.highReset (s : State) (o : Nat) : W32 :=
  if o = 0x14 then BitVec.ofNat 32 (s.part.uid.toNat / 2 ^ 32) else if o = 0x3000C then 0xFFFFFFFF else 0

/-- Reads the word at offset `o` through the pair latches (00 R7). -/
def readHub (o : Nat) (s : State) : W32 × State :=
  let v : W32 := BitVec.ofNat 32 (s.readHubReg o)
  if pairLow o then (v, s.setLatch (o + 4) (BitVec.ofNat 32 (s.readHubReg (o + 4))))
  else if 4 ≤ o && pairLow (o - 4) then (s.latch o (s.highReset o), s)
  else (v, s)

/-! ### Writes under the access codes (00 R8) -/

/-- Writes the register at `off` of the CMD block. -/
def writeCmd (off : Nat) (v : W32) (s : State) : State :=
  if off = 0 then { s with intake.rankShadow := v &&& 0x77777777 }
  else if off = 8 then (if v.getLsbD 0 then commitRanks s else s)
  else if 0x20 ≤ off && off < 0x40 then
    (if v.getLsbD 30 then s.setCport ((off - 0x20) / 4) fun x => { x with truncated := false } else s)
  else s

/-- Writes the register at `off` of the CAP block. -/
def writeCap (off : Nat) (v : W32) (s : State) : State :=
  if 0x100 ≤ off && off < 0x180 && off % 16 = 0 then
    s.setColl ((off - 0x100) / 16) fun c =>
      { c with overflow := c.overflow && !v.getLsbD 28, stoppedFull := c.stoppedFull && !v.getLsbD 27
               stoppedTrigger := c.stoppedTrigger && !v.getLsbD 26 }
  else if 0x200 ≤ off && off < 0x280 && off % 8 = 0 then
    s.setTrig ((off - 0x200) / 8) fun t =>
      { t with fired := t.fired && !v.getLsbD 30, captureMissed := t.captureMissed && !v.getLsbD 29 }
  else s

/-- Writes the register at `off` of the FAB block. -/
def writeFab (off : Nat) (v : W32) (s : State) : State :=
  if off = 0x100 then { s with fab.grpSel := v &&& 0xF80007FF }
  else if off = 0x124 then { s with fab.vioLost := s.fab.vioLost &&& ~~~v }
  else if 0x1000 ≤ off && off < 0x1800 then
    (if v.getLsbD 29 then s.setPort ((off - 0x1000) / 4) fun p => { p with dropped := false } else s)
  else s

/-- Writes the register at `off` of the CPG block. -/
def writeCpg (off : Nat) (v : W32) (s : State) : State :=
  if off = 0 then { s with coping.scrubCtl := v &&& 0x00FF00FF }
  else if off = 8 then { s with coping.seen := s.coping.seen &&& ~~~(v.truncate 16) }
  else if off = 0x0C then clearCpg (v.toNat % 256) s
  else s

/-- Writes the register at `off` of the CLK block (15 T15.13). -/
def writeClk (off : Nat) (v : W32) (s : State) : State :=
  if off = 0x10 then writeGate v s
  else if off = 0x14 then { s with clk.div0 := v &&& 0xFFFFFF03 }
  else if off = 0x18 then { s with clk.div1 := v.truncate 8 }
  else s

/-- Writes the register at offset `o` of the hub control space; a register that Table 0.4 makes read-only ignores
the write. -/
def writeHub (o : Nat) (v : W32) (s : State) : State :=
  let off := o % 2 ^ 16
  match o / 2 ^ 16 with
  | 0x01 => writeCmd off v s
  | 0x02 => if off = 0x1C then { s with cfg.dropped := 0 } else s
  | 0x03 => writeCap off v s
  | 0x04 => writeFab off v s
  | 0x05 => writeCpg off v s
  | 0x08 =>
    if off = 0x100 then { s with grout.slotSel := v &&& 0x003F0F07 }
    else if off = 0x200 then { s with grout.probeSel := v &&& 0x3FF } else s
  | 0x0B => if off = 4 then { s with dram.alarm := s.dram.alarm &&& ~~~(v.truncate 24) } else s
  | 0x0C => if off = 4 then { s with sec.seen := s.sec.seen &&& ~~~((v >>> 8).truncate 5) } else s
  | 0x10 => writeClk off v s
  | 0x13 => if 0x100 ≤ off && off < 0x280 then writePin ((off - 0x100) / 4) v s else s
  | _ => s

/-- The offset of a hub address in the space. -/
def hubOffset (a : Nat) : Nat := a % 2 ^ 24

/-- Performs a request on the hub control space (R600): status, data. -/
def hubAccess (r : GReq) (s : State) : (BitVec 4 × List Byte) × State :=
  let o := hubOffset r.addr.toNat
  match r.op with
  | .read =>
    let (bs, s) := readWords readHub o (r.len.toNat + 1) s
    ((0, bs), s)
  | .write => ((0, []), writeWords writeHub o (byteEnables r) r.data s)

end Sys2Proof.Machine
end

