-- ==== Sys2Proof/Machine/LaneOps.lean ====
section
/-!
DEFINITION. What lanes and PCIe links do (09): a lane coming up or losing lock in each use (08 T8.4, R313,
R323, R325), bring-up (R307), the host window (R320) and the effects of a link-down (R322).
-/
namespace Sys2Proof.Machine
open Sys2Proof

/-! ### Commands that wait for lanes (R330, 08 R297) -/

/-- LNS_STATE_l[31:24]. -/
def Lane.stateByte (x : Lane) : Byte := BitVec.ofNat 8 (x.stateWord / 2 ^ 24)

/-- The completion data of LNS_CONFIG: a byte per lane, padded to a multiple of 4. -/
def State.laneBytes (s : State) (ls : List Nat) : List Byte :=
  padTo (roundUp 4 ls.length) (ls.map fun l => (s.lane l).stateByte)

/-- The 8-byte records of BND_TRAIN (08 R297). -/
def State.trainBytes (s : State) : List Byte :=
  ((List.range 32).map fun g =>
    let x := s.grp g
    leBytes 1 x.state.code ++ leBytes 1 x.cause.toNat ++ leBytes 1 x.usable.toNat ++ leBytes 1 x.kMin.toNat ++
    leBytes 2 x.tLink.toNat ++ leBytes 1 x.retired.toNat ++ [0]).flatten

/-- A lane still brings itself up. -/
def Lane.rising (x : Lane) : Bool := x.state == .bringup || x.state == .retraining

/-- Commands whose lanes have all settled complete: LNS_CONFIG with OK, BND_TRAIN action 1 by what its groups
reached (assumption log 40). -/
def finishWaits (s : State) : State :=
  let done := s.lanes.waits.filter fun w => !(w.1.any fun l => (s.lane l).rising)
  let s := { s with lanes.waits := s.lanes.waits.filter fun w => w.1.any fun l => (s.lane l).rising }
  done.foldl (fun s w =>
    match s.entry w.2.1 w.2.2.1 w.2.2.2 with
    | none => s
    | some c =>
      if c.opcode = 0x0A11 then
        let ok := w.1.all fun l => (s.grp (l / 8)).state == .up
        reach w.2.1 w.2.2.1 w.2.2.2 (if ok then Status.ok else Status.badState) s.trainBytes s
      else reach w.2.1 w.2.2.1 w.2.2.2 Status.ok (s.laneBytes w.1) s) s

/-! ### Up and down (08 T8.4) -/

/-- A lane has settled: its group may leave a Hold or go DOWN (08 R289, R292), and commands that wait for lanes end. -/
def laneSettled (l : Nat) (s : State) : State :=
  let g := l / 8
  finishWaits (if (s.lane l).use = useBond && (s.grp g).state.trained then checkLanes g (holdSettle g s) else s)

/-- A lane enters UP; in bond use it returns to striping. -/
def laneUp (l : Nat) (s : State) : State :=
  let s := s.setLane l fun x => { x with state := .up, locked := true, step := 5 }
  let g := l / 8
  laneSettled l
    (if (s.lane l).use = useBond && (s.grp g).state.trained then
      groupResume g (setUsable g (setBit (s.grp g).usable (l % 8) true) s)
    else s)

/-- The widest width, as max_width codes it, at which lanes 0 to w - 1 or 16 - w to 15 hold no retired lane
(R323). -/
def widestLeft (retired : Nat) : Option Nat :=
  (List.range 5).find? fun k =>
    let w := 16 / 2 ^ k
    bitsAt retired 0 w == 0 || bitsAt retired (16 - w) w == 0

/-- The host-window requests of a controller that wait for a completion. -/
def answerOutstanding (c : Nat) (s : State) : State :=
  let rs := (s.pcie c).outstanding
  rs.foldl (fun s r => respond r 2 s) (s.setPcie c fun x => { x with outstanding := [] })

/-- A link-down, hot reset or function-level reset (R322): the mailbox buffers are discarded, with whatever was
submitted and not granted; the reply of a granted command is discarded; host-window requests are answered
ISOLATED. -/
def linkDown (c : Nat) (cause : Nat) (s : State) : State :=
  let port : Fin 8 := Fin.ofNat 8 c
  let s := { s with intake := { s.intake with
    mbReq := s.intake.mbReq.filter fun e => e.1 / 131072 != c
    mbExtent := SMap.put 0 s.intake.mbExtent c 0
    replies := SMap.put {} s.intake.replies (srcKey port 0) {}
    busy := s.intake.busy.map fun (h : Held) => if h.packet.cmd.port = port then { h with mute := true } else h } }
  let s := s.setCport c fun p => { p with requests := [] }
  let s := answerOutstanding c s
  let s := s.setPcie c fun x =>
    { x with bme := false, d3hot := false, hostReplies := []
             ltssm := if cause = 2 then x.ltssm else if cause = 5 then 0 else if cause = 4 then 8 else if cause = 1 then 7 else 1
             width := if cause = 2 then x.width else 0, rate := if cause = 2 then x.rate else 0
             flit := cause = 2 && x.flit }
  logEvent 0x6011 [c, cause] s

/-- A PCIe lane has been retired: the controller goes on at the widest width left, or the link stays down
(R323). -/
def narrowLink (c : Nat) (s : State) : State :=
  let x := s.pcie c
  match widestLeft x.retired.toNat with
  | none => linkDown c 4 s
  | some w =>
    if w ≤ x.width.toNat then s
    else logEvent 0x6013 [c, x.width.toNat, w, x.retired.toNat] (s.setPcie c fun x => { x with width := BitVec.ofNat 3 w })

/-- A loss of lock that counts: logged, then a retrain, or retirement at the third within 10 s. -/
def countedLoss (l : Nat) (s : State) : State :=
  let s := if (s.lane l).recent s.time ≥ 2 then s else logEvent 0x6001 [l, s.bond.beat.toNat] s
  startRetrain l s

/-- A lane in UP loses lock, by its use (08 T8.4, R313, R323, R325). -/
def lockLost (l : Nat) (s : State) : State :=
  let x := s.lane l
  let g := l / 8
  let unlock (s : State) : State := s.setLane l (·.unlock)
  if x.state ≠ .up || x.loop ≠ 0 then unlock s
  else if x.use = useBond && ((s.grp g).state = .peerHold || (s.grp g).holding) then
    unlock (s.setLane l fun x => { x with state := .idle })
  else if x.use = useBond then
    let s := countedLoss l s
    checkLanes g (if (s.grp g).state = .up then replayAll g s else s)
  else if x.use = 2 then
    let s := countedLoss l s
    match laneCtl l with
    | some c => if (s.lane l).state = .retired then narrowLink c s else laneUp l s
    | none => s
  else if x.use = 3 then ethDown l 0 (countedLoss l s)
  else countedLoss l s

/-- The lane has a check of 08 R287 in its retrains: bond lanes, and raw lanes with bringup 1 (R315). -/
def Lane.checked (x : Lane) : Bool := x.use == useBond || (4 ≤ x.use.toNat && x.bringup)

/-- A retrain ends (08 T8.4). -/
def retrainDone (l : Nat) (r : RetrainResult) (s : State) : State :=
  let x := s.lane l
  if x.state ≠ .retraining then s
  else
    let pass (s : State) : State := laneUp l (logEvent 0x6002 [l, x.recent s.time] s)
    match r with
    | .passed => pass s
    | .selfTestFailed => if x.checked then laneSettled l (retireLane l 1 0 s) else s
    | .prbsErrors n => if !x.checked then s else if 10 < n then laneSettled l (retireLane l 2 n s) else pass s

/-! ### Bring-up (R306, R307) -/

/-- A bring-up set is good: 16 characters without an error, K28.5 at character 0 and nowhere else, its CRC right. -/
def goodSet (chars : List (Byte × Bool)) (errors : Nat) : Bool :=
  let vs := chars.map (·.1)
  errors == 0 && chars.length == 16 && chars.head? == some (commaChar, true) && (chars.drop 1).all (!·.2) &&
  (Crypto.crc16 ((vs.drop 1).take 13)).toNat == fieldAt vs 14 2

/-- The lane sends a set of a type (T9.3). Which preset it asks of the peer the spec does not say: its own tx_preset (PRESUMED,
assumption log 84). -/
def State.sendSet (s : State) (l : Nat) (kind : Nat) : State :=
  s.setLane l fun x =>
    let bond : Bool := x.use == useBond
    let chars := bringupChars kind l (if s.bond.state == .unconfigured then 0xFF else s.bond.device.toNat) x.rate.toNat
      x.preset.toNat (if bond then s.bond.domainId.toNat else 0) (if bond then (s.grp (l / 8)).session.toNat else 0)
    let (set, rd) := encodeSet x.txRd chars
    { x with txSet := set, txRd := rd, acksSent := x.acksSent + b2n (kind == 2) }

/-- A bring-up fails at a step: logged, and commands that wait for the lane end. -/
def bringupFails (l step : Nat) (s : State) : State :=
  let s := s.setLane l fun x => { x.unlock with state := .failed, failStep := BitVec.ofNat 8 step }
  finishWaits (logEvent 0x6032 [l, step] s)

/-- Steps 3 to 5: 16 RATE_CHANGE sets and the idle time, then the lower rate code; unequal codes fail a bond group; 8b/10b use
stays at this level and is up, every other use sends training blocks. The lane takes the preset that the peer asked for
(R311). -/
def rateChange (l : Nat) (s : State) : State :=
  let s := s.sendSet l 3
  let x := s.lane l
  if x.use = useBond && x.rate ≠ x.peerRate then
    let g := l / 8
    let s := if (s.grp g).state = .training then
        logEvent 0x6111 [g, 5] (s.setGrp g fun y => { y with state := .trainFailed, cause := 5 })
      else s
    bringupFails l 4 s
  else
    let s := s.setLane l fun x =>
      ({ x with rate := if x.peerRate.toNat < x.rate.toNat then x.peerRate else x.rate, step := 5 }.setPreset x.peerPreset).judgeEq
    if x.use = 5 then laneUp l s else s

/-- A good set counts towards steps 2 and 3, and the lane sends a set of its own in the same time. -/
def goodSetTaken (l : Nat) (chars : List Byte) (s : State) : State :=
  let s := s.setLane l fun x =>
    let good := x.good + 1
    { x with good, peerRate := BitVec.ofNat 4 (fieldAt chars 4 1), peerPreset := BitVec.ofNat 4 (fieldAt chars 5 1)
             acks := if x.step = 2 && fieldAt chars 1 1 = 2 then x.acks + 1 else x.acks
             step := if x.step = 1 && 16 ≤ good then 2 else x.step }
  let s := s.sendSet l (s.lane l).step
  let x := s.lane l
  if x.step = 2 && 8 ≤ x.acks && 8 ≤ x.acksSent then rateChange l (s.setLane l fun x => { x with step := 3 }) else s

/-- Symbols of the 8b/10b level arrive (R306): without comma lock the receiver looks for K28.5, of either disparity, at their
start; with it every error counts. In bring-up 16 symbols are a set (R307); a raw 8b/10b lane that is UP hands the characters to
the fabric. -/
def bringupSet (l : Nat) (symbols : List (BitVec 10)) (s : State) : State :=
  let x := s.lane l
  let rising : Bool := x.state == .bringup && x.use != 3 && x.step < 5
  if !rising && !(x.state == .up && x.use == 5) then s
  else
    let comma (rd : Bool) : Bool := symbols.head? == encodeControl rd commaChar
    let start : Option Bool := if x.locked then some x.rxRd else if comma false then some false else if comma true then some true else none
    match start with
    | none => s
    | some rd =>
      let (chars, errors, rd) := decodeSymbols rd symbols
      let s := s.setLane l fun x => { x with locked := true, rxRd := rd, codeErr := satAdd x.codeErr errors }
      if !rising then s
      else if goodSet chars errors then goodSetTaken l (chars.map (·.1)) s
      else (s.setLane l fun x => { x with good := 0 }).sendSet l x.step

/-- 100 ms pass without UP. -/
def bringupTimeout (l : Nat) (s : State) : State :=
  let x := s.lane l
  if x.state ≠ .bringup then s
  else
    let s := if x.use = useBond then
        s.setGrp (l / 8) fun y => if y.state = .training then { y with cause := 7 } else y
      else s
    bringupFails l x.step s

/-! ### What the line carries (R313, R314, T9.5) -/

/-- What drives a lane's line. -/
inductive LineTx where
  | idle
  | set (symbols : List (BitVec 10))
  | prbs
  | received (levels : List (BitVec 2))
  | data
deriving DecidableEq, Repr

/-- The line transmitter of a lane: electrical idle in every state but bring-up, retraining and UP, and in a near-end serial
loop; the ordered set of bring-up; the received bits in a far-end loop; the generator's pattern; else its use's data. -/
def Lane.lineTx (x : Lane) : LineTx :=
  if !(x.state == .bringup || x.state == .retraining || x.state == .up) || x.loop == 1 then .idle
  else if x.state == .bringup && x.step < 5 then .set x.txSet
  else if x.loop == 3 then .received x.retimed
  else if x.prbsGen then .prbs
  else .data

/-! ### References (R305) -/

/-- Declared frequencies in Hz. -/
def refHz (code : BitVec 2) : Nat := if code = 1 then 100000000 else if code = 2 then 156250000 else 161132813

/-- The lanes of a die that take one of its references. -/
def refLanes (die : Nat) (b : Bool) (s : State) : List Nat :=
  ((List.range 32).map (32 * die + ·)).filter fun l => (s.lane l).refSel == b && (s.lane l).use != 0

/-- A lane stays idle: in Hold, but for those of an enabled PCIe controller, and an Ethernet or raw lane in Quarantine or under
freeze bit 2 (R327, 16 R553). -/
def State.laneRests (s : State) (l : Nat) : Bool :=
  let x := s.lane l
  (s.power.mode == .hold && !(x.use == 2 && s.pcieLane l)) ||
  ((s.secAxis == .quarantine || s.frozen.getLsbD 2) && decide (2 < x.use.toNat))

/-- One reference of a die is measured: the next state field, and what follows for its lanes. The
record holds the frequency in hertz (assumption log 42). -/
def refCheckOne (die : Nat) (b : Bool) (r : RefReading) (s : State) : State :=
  let x := s.refs die
  let freq := if b then x.freqB else x.freqA
  let st := if b then x.stateB else x.stateA
  let put (v : BitVec 2) (s : State) : State :=
    { s with lanes.refs := SMap.upd {} s.lanes.refs die fun x => if b then { x with stateB := v } else { x with stateA := v } }
  if freq = 0 then put 0 s
  else
    let fault := r.noEdge || 1000 < r.ppm.natAbs
    if fault then
      if st = 2 then s
      else
        let hz : Int := if r.noEdge then 0 else refHz freq + (refHz freq : Int) * r.ppm / 1000000
        let s := logEvent 0x6030 [die, b2n b, hz.toNat] (put 2 s)
        finishWaits ((refLanes die b s).foldl (fun s l =>
          let s := ethDown l 0 s
          s.setLane l fun x =>
            if x.rising || x.state = .up || x.state = .failed then { x.unlock with state := .noRef } else x) s)
    else if st = 2 then
      if r.goodFor < 10 then s
      else
        let s := logEvent 0x6031 [die, b2n b] (put 1 s)
        (refLanes die b s).foldl (fun s l => s.setLane l fun x =>
          if x.state ≠ .noRef then x else if s.laneRests l then { x with state := .idle } else x.start false) s
    else put 1 s

/-! ### The data level (R308 to R310) -/

/-- A sync header arrives: the run of valid ones, the bad ones of the last 64 blocks, errors counted. -/
def Lane.header (x : Lane) (h : BitVec 2) : Lane :=
  let ok := h = 1 || h = 2
  { x with hdrRun := if ok then x.hdrRun + 1 else 0, hdrBad := ((!ok) :: x.hdrBad).take 64
           codeErr := if ok then x.codeErr else satAdd x.codeErr 1 }

/-- A header moves the lock: gained after 64 valid ones in a row, lost after 16 bad ones within 64 blocks. -/
def headerLock (l : Nat) (h : BitVec 2) (s : State) : State :=
  let s := s.setLane l (·.header h)
  let x := s.lane l
  if !x.locked && 64 ≤ x.hdrRun then s.setLane l fun x => { x with locked := true, hdrBad := [] }
  else if x.locked && 16 ≤ (x.hdrBad.filter id).length then
    lockLost l (s.setLane l fun x => { x with hdrRun := 0, hdrBad := [] })
  else s

/-- A 68-bit block arrives as line levels: its payload is descrambled and stands with those before it, and its header moves the
lock. -/
def blockArrives (l : Nat) (levels : List (BitVec 2)) (s : State) : State :=
  let x := s.lane l
  let (h, v, st) := decodeBlock (pam4 x.rate.toNat) levels x.descrambler
  headerLock l h (s.setLane l fun x =>
    { x with descrambler := st, rxBlocks := (x.rxBlocks ++ [(h == 2, v)]).drop ((x.rxBlocks.length + 1) - 8) })

/-- Line levels arrive on a lane, a block at a time: at the data level they are its blocks (R308), in raw PMA use they give CDR
lock (assumption log 41), and a far-end loop sends them again (R313). -/
def blocksArrive (l : Nat) (blocks : List (List (BitVec 2))) (s : State) : State :=
  let x := s.lane l
  let s := if x.loop = 3 then s.setLane l fun x => { x with retimed := blocks.flatten } else s
  if x.use = useBond || x.use = 4 then blocks.foldl (fun s b => blockArrives l b s) s
  else if x.use = 6 && x.state = .up && !blocks.isEmpty then s.setLane l fun x => { x with locked := true }
  else s

/-! ### The PRBS checker (R315) -/

/-- One received bit at the checker: unlocked, the bits before it predict it, and 256 right ones in a row lock; locked, the
pattern runs on by itself, bits and errors count, and 512 errors within 1,024 bits unlock. -/
def Lane.prbsBit (x : Lane) (line : Bool) : Lane :=
  let b := line != x.prbsInvert
  let want := prbsNext x.prbsPattern.toNat x.prbsReg
  let shift (b : Bool) : BitVec 31 := setBit (x.prbsReg <<< 1) 0 b
  if !x.prbsChk then x
  else if x.prbsLock then
    let bad := b != want
    let win := (bad :: x.prbsWin).take 1024
    let x := { x with prbsReg := shift want, prbsWin := win, prbsBits := satAdd x.prbsBits 1
                      prbsErr := if bad then satAdd x.prbsErr 1 else x.prbsErr }
    if 512 ≤ (win.filter id).length then { x with prbsLock := false, prbsFill := 0, prbsRun := 0, prbsWin := [] } else x
  else
    let full : Bool := (prbsTaps x.prbsPattern.toNat).headD 31 ≤ x.prbsFill
    let run := if full && b == want then x.prbsRun + 1 else 0
    { x with prbsReg := shift b, prbsFill := min 31 (x.prbsFill + 1), prbsRun := run, prbsLock := decide (256 ≤ run) }

/-! ### The host window and BAR 4 (R319 to R321) -/

/-- Requests reach the host: L0 or L0p, Bus Master Enable, not D3hot. -/
def Pcie.reaches (x : Pcie) : Bool := (x.ltssm == 3 || x.ltssm == 4) && x.bme && !x.d3hot

/-- All units that a request covers. -/
def coveredUnits (r : GReq) : BitVec 4 :=
  unitPoison r.addr.toNat (List.replicate (r.len.toNat + 1) true)

/-- The host answers a request of the window. -/
def hostAnswers (r : GReq) (ok : Bool) (data : List Byte) (poisoned : Bool) (s : State) : State :=
  if ok then
    answer r 0 (match r.op with | .read => padTo (r.len.toNat + 1) data | .write => [])
      (if poisoned && r.op == .read then coveredUnits r else 0) s
  else answer r 1 [] 0 s

/-- A request to a host window (R320): ISOLATED at once where the host is out of reach; a write is posted
(assumption log 43); a read waits for its completion. -/
def hostWindow (r : GReq) (completion : Option (Bool × List Byte × Bool)) (s : State) : State :=
  let c := bitsAt r.addr.toNat 40 1
  let waiting := (s.pcie c).outstanding.contains r
  let s := s.setPcie c fun x => { x with outstanding := x.outstanding.erase r }
  if !(s.pcie c).reaches then answer r 2 [] 0 s
  else match completion, r.op with
    | some (ok, data, p), _ => hostAnswers r ok data p s
    | none, .write => answer r 0 [] 0 s
    | none, .read =>
      let s := if waiting then s else { s with grout.inflight := s.grout.inflight.erase r }
      s.setPcie c fun x => { x with outstanding := x.outstanding ++ [r] }

/-- A request through BAR 4 enters grout at the controller's endpoint that serves the address's block. -/
def bar4Req (c : Nat) (op : GOp) (offset : Nat) (len : BitVec 8) (tag : BitVec 10) (byteEn : BitVec 256)
    (data : List Byte) (poisoned : Bool) (s : State) : GReq :=
  let a : Addr := BitVec.ofNat 48 ((s.pcie c).b4base.toNat + offset)
  let r : GReq :=
    { src := { x := 4 + bitsAt a.toNat 8 2, y := 15 * c, ep := 2 }, master := BitVec.ofNat 16 (0x10 + c), op, addr := a, len, tag
      byteEn, data, poison := 0, mgmt := false }
  { r with poison := if poisoned then coveredUnits r else 0 }

/-- What the host reads from BAR 4 on a grout status (R319): 0 successful, 1 Unsupported Request, 4 Completer
Abort, as the PCIe base specification codes them. -/
def completionStatus (st : BitVec 4) : BitVec 4 := if st = 0 then 0 else if st = 2 || st = 5 then 1 else 4

/-- A response reaches a PCIe controller: reads complete to the host, failed posted writes are dropped and
logged. -/
def bar4Answer (c : Nat) (p : GResp) (s : State) : State :=
  match p.req.op with
  | .read => s.setPcie c fun x =>
      { x with hostReplies := x.hostReplies ++ [(p.req.tag, completionStatus p.status, p.data, p.poison != 0)] }
  | .write => if p.status = 0 then s else logEvent 0x6012 [c, p.req.addr.toNat, p.status.toNat] s

end Sys2Proof.Machine
end

