-- ==== Sys2Proof/Machine/SpatuOps.lean ====
section
/-!
DEFINITION. Spatu commands (02): what a command's card says, the checks of Table 2.7 in their order, the reply, and
the grant of a packet.
-/
namespace Sys2Proof.Machine
open Sys2Proof

/-! ### Cards -/

/-- The classes of 14 T14.4, and the maker's own command. -/
inductive Class where
  | identity | reset | power | security | operation | debug | maker
deriving DecidableEq, Repr

/-- What executing a command answers: its reply, ACCEPTED with the rest in the background, or a reply that waits
while the command holds the intake: with the 2 ms of R60 as its limit or without, or for a work that never runs in the
background (R61). -/
inductive Answer where
  | reply (status : BitVec 16) (data : List Byte)
  | accepted
  | held (limit : Bool)
  | awaits (work : Work)
deriving DecidableEq, Repr

/-- The counter a request consumed and the key that checked it (R49). -/
abbrev Auth := Option (W64 × List Byte)

/-- A command's card: its opcode and class, whether it is critical, whether Hold permits it (14 R466), whether its
parameters may lead to ACCEPTED (R61), its length check, what check steps 7 and 8 answer where they fail, what a
failure there records, and its execution. -/
structure Card where
  opcode : BitVec 16
  critical : Bool
  cls : Class
  holdOk : Cmd → State → Bool := fun _ _ => true
  background : Cmd → Bool := fun _ => false
  lengthOk : Cmd → Bool
  state : Cmd → State → Option (BitVec 16) := fun _ _ => none
  param : Cmd → State → Option (BitVec 16) := fun _ _ => none
  onFail : Cmd → BitVec 16 → State → State := fun _ _ s => s
  run : Cmd → Auth → State → Answer × State

/-- BAD_PARAM where a parameter is out of range. -/
def inRange (ok : Bool) : Option (BitVec 16) := if ok then none else some Status.badParam

/-- BAD_STATE where the state is not the one required. -/
def needs (ok : Bool) : Option (BitVec 16) := if ok then none else some Status.badState

/-- OK with reply data. -/
def answerOk (data : List Byte) (s : State) : Answer × State := (.reply Status.ok data, s)

/-- Another status without data. -/
def answerWith (status : BitVec 16) (s : State) : Answer × State := (.reply status [], s)

/-! ### Step 3 (R56, 14 R465 to R467, R602) -/

/-- The status commands of 14 T14.5. -/
def statusOpcodes : List Nat :=
  [0x0206, 0x0211, 0x0305, 0x0312, 0x0406, 0x0506, 0x0804, 0x0901, 0x0911, 0x0921, 0x0A04, 0x0A15, 0x0B03]

/-- The port permits the opcode (T14.5). -/
def portPermits (card : Card) (port : Fin 8) (s : State) : Bool :=
  if port = 2 || port = 3 then
    s.secAxis != .quarantine || (card.opcode.toNat == 0x0100 || card.opcode.toNat == 0x0101 ||
      card.opcode.toNat == 0x0110 || statusOpcodes.contains card.opcode.toNat)
  else if port = 5 then card.cls != .security && card.cls != .reset
  else if port = 7 then card.cls == .identity
  else true

/-- The mode combination permits the opcode. -/
def modePermits (card : Card) (c : Cmd) (s : State) : Bool :=
  if s.evr.returnState then
    card.opcode.toNat == 0x0100 || card.opcode.toNat == 0x0101 || card.opcode.toNat == 0x0C01
  else
    let hold := s.power.mode != .hold || card.holdOk c s
    match card.cls with
    | .identity | .reset => true
    | .power | .security | .operation => s.secAxis != .quarantine && hold
    | .debug => s.secAxis != .quarantine && hold && (s.sec.stored != .sealed || s.sec.session.isSome)
    | .maker => false

/-! ### Step 2 (R46, R57) -/

/-- The lengths of a request agree. -/
def sizeOk (card : Card) (c : Cmd) : Bool :=
  c.paramLength.toNat % 4 == 0 && decide (c.paramLength.toNat ≤ 65536) &&
  c.body.length == c.paramLength.toNat + (if c.trailer then 16 else 0) && card.lengthOk c

/-- flags.reply and the reserved flags are 0. -/
def flagsOk (c : Cmd) : Bool := !c.flags.getLsbD 0 && bitsAt c.flags.toNat 7 9 == 0

/-! ### Steps 5 and 6 (R47, R51 to R55) -/

/-- The key that checks a request's trailer; an empty slot gives none. RETURN_UNLOCK is checked under Oskurov's own
key (R52, 17 R576). -/
def State.trailerKey (s : State) (card : Card) (c : Cmd) : List Byte :=
  if card.cls = .maker then (List.range 32).map Config.makerKey else SMap.look [] s.sec.keys c.keySlot

/-- An AUTH_FAIL of step 5: logged with the key slot its trailer names (17 R560: 0 where there is none), counted, and at
the 16th in a row the port is locked out (R55). -/
def authFail (card : Card) (p : Packet) (s : State) : State :=
  let n := p.cmd.port.val
  let slot := if p.cmd.trailer && card.cls != .maker then p.cmd.keySlot else 0
  let s := logEvent 0x2001 [n, p.cmd.source.toNat, p.opcode.toNat, slot] s
  let s := s.setCport n fun x => { x with failRun := x.failRun + 1 }
  if (s.cport n).failRun = 16 then
    let s := s.setCport n fun x => { x with lockedOut := true, lockoutAt := s.time }
    raiseAlarm 3 (logEvent 0x2003 [n, p.cmd.source.toNat] s)
  else s

/-- Steps 5 and 6: the failure status, or the counter consumed and the key. -/
def checkTrailer (card : Card) (p : Packet) (s : State) : ((BitVec 16) ⊕ Auth) × State :=
  let c := p.cmd
  if !c.trailer then
    if card.cls = .maker || (card.critical && s.secAxis != .blank) then (.inl Status.authFail, authFail card p s)
    else (.inr none, s)
  else
    let key := s.trailerKey card c
    if key.isEmpty || (Crypto.cmac key p.macInput).take 8 ≠ c.mac then (.inl Status.authFail, authFail card p s)
    else
      let s := s.setCport c.port.val fun x => { x with failRun := 0 }
      let ctr : W64 := BitVec.ofNat 64 c.counter
      if card.cls = .maker then (.inr none, s)
      else
        let stored := SMap.look 0 s.intake.counters c.keySlot
        if ctr.toNat ≤ stored.toNat then
          (.inl Status.counterStale,
            logEvent 0x2002 [c.port.val, c.source.toNat, p.opcode.toNat, c.keySlot, ctr.toNat, stored.toNat] s)
        else (.inr (some (ctr, key)), { s with intake.counters := SMap.put 0 s.intake.counters c.keySlot ctr })

/-! ### Step 7 (R56, R59, R61, R68, 14 R476) -/

/-- The packet's sender holds the locked sequence. -/
def State.ownsLock (s : State) (c : Cmd) : Bool :=
  match s.intake.lock with
  | some l => l.port == c.port && l.source == c.source
  | none => false

/-- The sender owns the session. -/
def State.ownsSession (s : State) (c : Cmd) : Bool :=
  match s.sec.session with
  | some n => n.port == c.port && n.source == c.source
  | none => false

/-- The checks of step 7 that every card shares. -/
def commonState (card : Card) (c : Cmd) (auth : Auth) (s : State) : Option (BitVec 16) :=
  if (s.entry c.port c.source c.tag).isSome then some Status.badState
  else if c.lockBegin && c.lockEnd then some Status.badState
  else if c.lockBegin && (s.ownsLock c || (s.secAxis != .blank && auth.isNone)) then some Status.badState
  else if c.lockEnd && !s.ownsLock c then some Status.badState
  else if card.background c && 16 ≤ s.intake.table.length then some Status.backoff
  else if card.cls = .debug && s.sec.session.isSome && !s.ownsSession c then some Status.badState
  else card.state c s

/-! ### Step 9 -/

/-- A class D command opens an implicit session in Blank and Open (14 R476). -/
def openImplicit (card : Card) (c : Cmd) (s : State) : State :=
  if card.cls = .debug && s.sec.session.isNone then
    logEvent 0x2060 [c.port.val, c.source.toNat, 1, 0]
      { s with sec.session := some { isImplicit := true, port := c.port, source := c.source, keyId := 0, captureKey := none } }
  else s

/-- The entry a command that may be accepted reserves (R61). No row reports a share of its work done: progress reads 0 until
it finishes (assumption log 79). -/
def newEntry (card : Card) (c : Cmd) (auth : Auth) : Completion :=
  { port := c.port, source := c.source, tag := c.tag, opcode := card.opcode, notify := c.notify, auth, done := false
    status := Status.accepted, progress := 0, data := [], doneAt := 0, work := .other }

/-- Execution: the implicit session, the completion entry, then the card. -/
def execute (card : Card) (c : Cmd) (auth : Auth) (s : State) : Answer × State :=
  let s := openImplicit card c s
  let s := if card.background c then
      { s with intake.table := s.intake.table ++ [newEntry card c auth] }
    else s
  card.run c auth s

/-- The command would succeed. -/
def Answer.succeeds : Answer → Bool
  | .reply st _ => st == Status.ok || st == Status.accepted
  | .accepted | .held _ | .awaits _ => true

/-- A successful execution requires a record that a read-only log cannot take (R50, 17 R571): class 0x2xxx, or
LOG_CLEARED; RETURN_PREPARE is exempt. -/
def lacksLog (card : Card) (c : Cmd) (auth : Auth) (s : State) : Bool :=
  s.evr.readonly && card.opcode.toNat != 0x0C00 &&
  (let (a, t) := execute card c auth { s with evr := { s.evr with readonly := false, pending := [] } }
   a.succeeds && (card.opcode.toNat == 0x0602 || t.evr.pending.any fun r => r.code.toNat / 4096 == 2))

/-! ### The answer -/

/-- The command holds the intake. -/
def holdIntake (p : Packet) (auth : Auth) (limit : Bool) (s : State) : State :=
  let deadline := if limit then some (s.time + 2 * ticksPerMs) else none
  { s with intake.busy := some { packet := p, auth, deadline } }

/-- The answer of an execution: its entry stays only where the reply is ACCEPTED, and a held command whose entry is
done already answers at once. -/
def giveAnswer (p : Packet) (auth : Auth) (a : Answer) (s : State) : State :=
  let c := p.cmd
  match a with
  | .reply st data =>
    let s := releaseEntry c.port c.source c.tag s
    replyTo p auth st data (if st = Status.ok then beginLock p s else s)
  | .accepted => replyTo p auth Status.accepted [] (beginLock p s)
  | .held limit =>
    match s.entry c.port c.source c.tag with
    | some e =>
      if e.done then
        let s := releaseEntry c.port c.source c.tag s
        replyTo p auth e.status e.data (if e.status = Status.ok then beginLock p s else s)
      else holdIntake p auth limit s
    | none => holdIntake p auth limit s
  | .awaits work => { s with intake.busy := some { packet := p, auth, work } }

/-- Steps 7 to 9 of a packet whose trailer has passed. The BACKOFF of a full completion table leaves retry_cycles and the
source's next submission alone (assumption log 78). -/
def checkAndRun (card : Card) (p : Packet) (auth : Auth) (s : State) : State :=
  let c := p.cmd
  let bad := commonState card c auth s
  let s := if c.lockEnd && s.ownsLock c then { s with intake.lock := none } else s
  match bad with
  | some st =>
    replyTo p auth st (if st = Status.backoff then leBytes 4 1024 else []) (card.onFail c st s)
  | none =>
    match card.param c s with
    | some st => replyTo p auth st [] (card.onFail c st s)
    | none =>
      if lacksLog card c auth s then replyTo p auth Status.logFullReadonly [] s
      else
        let (a, s) := execute card c auth s
        giveAnswer p auth a s

/-- The checks of Table 2.7 on a granted packet, then its execution; the first failure answers. -/
def process (card : Option Card) (p : Packet) (s : State) : State :=
  match card with
  | none => replyTo p none Status.badOpcode [] s
  | some card =>
    let c := p.cmd
    if !sizeOk card c then replyTo p none Status.badLength [] s
    else if !flagsOk c then replyTo p none Status.badParam [] s
    else if !(portPermits card c.port s && modePermits card c s) then
      replyTo p none Status.notInMode [] s
    else if (s.cport c.port.val).lockedOut && (card.critical || c.trailer) then
      replyTo p none Status.lockedOut [] s
    else match checkTrailer card p s with
      | (.inl st, s) => replyTo p none st [] s
      | (.inr auth, s) => checkAndRun card p auth s

/-! ### The grant (R38, R64 to R68) -/

/-- The port and source exist on the part (T2.1): the mailboxes while their lane die's I/O is up (01 R17), the SPI service slave
while its clock is not gated (15 R522), the guest gate only while its role enables it (01 R28). -/
def State.sourceExists (s : State) (port : Fin 8) (source : BitVec 16) : Bool :=
  if port = 5 then source.toNat < 192 else if port = 6 then source.toNat < 64
  else if port = 7 then s.part.guestVariant && s.dev.role && !s.dieAbsent 25 && source == 0
  else if port = 4 then source == 0 && s.clk.gate.getLsbD 12
  else source == 0 && (2 ≤ port.val || !s.dieDark (ctlDie port.val))

/-- The packet may be granted: the intake is free and no other sender's locked sequence runs. -/
def State.intakeFree (s : State) (c : Cmd) : Bool :=
  s.intake.busy.isNone && (s.intake.lock.isNone || s.ownsLock c)

/-- A Hold that only waited for a drain is reached (15 R510), and a held command whose 2 ms have passed answers
ACCEPTED (R60). -/
def expireHeld (s : State) : State :=
  let s := heldAfterDrain s
  match s.intake.busy with
  | some h =>
    match h.deadline with
    | some t => if t ≤ s.time then finishHeld Status.accepted [] s else s
    | none => s
  | none => s

/-- Captured ranks take effect (R65). -/
def takeRanks (s : State) : State :=
  match s.intake.rankPending with
  | some r => { s with intake := { s.intake with rankActive := r, rankPending := none } }
  | none => s

/-- The packet is granted: the arbiter's rotations and the port's loss count. -/
def grant (p : Packet) (s : State) : State :=
  let n := p.cmd.port.val
  let s := takeRanks s
  let s := { s with intake := { s.intake with
    lastPort := n
    last5 := if n = 5 then p.cmd.source.toNat else s.intake.last5
    last6 := if n = 6 then p.cmd.source.toNat else s.intake.last6 } }
  s.setCport n Port.granted

/-- The packets of a port that may be granted: the lock owner's alone while a locked sequence runs (R68). -/
def State.eligible (s : State) (p : Nat) : List Packet :=
  (s.cport p).requests.filter fun q => s.intake.lock.isNone || s.ownsLock q.cmd

/-- The port that the arbiter grants: the highest active rank, the rotation among equals (R64). -/
def State.chosenPort (s : State) : Option Nat :=
  let ps := (List.range 8).filter fun p => !(s.eligible p).isEmpty
  match (ps.map (rankOf s.intake.rankActive)).max? with
  | none => none
  | some top => nextAfter s.intake.lastPort (ps.filter fun p => rankOf s.intake.rankActive p == top)

/-- The packet granted on a port: on ports 5 and 6 the next source of the rotation (R39). -/
def State.chosenPacket (s : State) (p : Nat) : Option Packet :=
  let qs := s.eligible p
  let source := nextAfter (if p = 5 then s.intake.last5 else s.intake.last6) (qs.map (·.cmd.source.toNat))
  if p = 5 || p = 6 then qs.find? fun q => some q.cmd.source.toNat == source else qs.head?

/-- The packet the arbiter grants among the requests. -/
def State.chosen (s : State) : Option Packet := s.chosenPort.bind s.chosenPacket

/-- Every packet still requesting on a port loses: one loss, every packet answered with its retry count (R66). -/
def losePort (s : State) (p : Nat) : State :=
  match (s.cport p).requests with
  | [] => s
  | qs =>
    let s := s.setCport p fun x => { x.lose s.time with requests := [] }
    qs.foldl (fun s q => replyBackoff q (s.cport p).retry s) s

/-- Every request not granted loses. -/
def loseAll (s : State) : State := (List.range 8).foldl losePort s

/-- A packet that requests now is the one the arbiter grants among all the requests of this cycle. -/
def State.wins (s : State) (p : Packet) : Bool := (request p (takeRanks s)).chosen == some p

/-- The packet's port takes it: the intake is open, the source exists and awaits no reply. -/
def State.submits (s : State) (p : Packet) : Bool :=
  s.intake.opened && s.sourceExists p.cmd.port p.cmd.source && !(s.space p.cmd.port p.cmd.source).reqBusy

/-- The packet comes to arbitration: its retry count has elapsed and the intake is free for it. -/
def State.reaches (s : State) (p : Packet) : Bool :=
  decide ((s.space p.cmd.port p.cmd.source).retryUntil ≤ s.time) && s.intakeFree p.cmd

/-- The packet is submitted and awaits its reply. -/
def submitted (p : Packet) (s : State) : State :=
  (spiTurn p.cmd.port s).setSpace p.cmd.port p.cmd.source fun sp => { sp with reqBusy := true }

/-- The packet is granted and every other request of the cycle loses. -/
def granted (p : Packet) (s : State) : State := loseAll (grant p s)

/-- The packet of a row is submitted and granted. -/
def State.admits (s : State) (p : Packet) : Bool := s.submits p && s.reaches p && (submitted p s).wins p

/-- A command of a row: its packet requests the intake (R64, R66). Where the arbiter grants it, every other request loses
in that cycle and it is processed; where another request is to be granted first, the cycle of INTAKE_CYCLE decides
(assumption log 1). -/
def spatu (card : Card) (c : Cmd) (s : State) : State :=
  let p : Packet := { opcode := card.opcode, cmd := c }
  let s := expireHeld s
  if !s.submits p then s
  else
    let t := submitted p s
    if !s.reaches p then loseAlone p t
    else if t.wins p then process (some card) p (granted p t)
    else request p t

end Sys2Proof.Machine
end

