-- ==== Sys2Proof/Machine/AclCmds.lean ====
section
/-!
DEFINITION. The ACL commands (14 R498), the hardware sweep of the verdict caches (R484), the reconcile sweep (R490,
R491), the guest gate (R486 to R489) and the GST commands (R499), one definition per row.
-/
namespace Sys2Proof.Machine
open Sys2Proof

/-! ### ACL_WRITE, ACL_READ, ACL_INVALIDATE (R484, R485, R498) -/

/-- An entry of Table 14.11 from its 24 bytes. -/
def parseEntry (bs : List Byte) : AclEntry :=
  { masterLo := BitVec.ofNat 16 (fieldAt bs 0 2), masterHi := BitVec.ofNat 16 (fieldAt bs 2 2)
    rights := BitVec.ofNat 8 (fieldAt bs 4 1), base := BitVec.ofNat 64 (fieldAt bs 8 8)
    limit := BitVec.ofNat 64 (fieldAt bs 16 8) }

/-- The 24 bytes of an entry. -/
def AclEntry.bytes (e : AclEntry) : List Byte :=
  leBytes 2 e.masterLo.toNat ++ leBytes 2 e.masterHi.toNat ++ [e.rights, 0, 0, 0] ++ leBytes 8 e.base.toNat ++
  leBytes 8 e.limit.toNat

/-- The range and the reserved fields of an entry are in order. -/
def entryRangeOk (bs : List Byte) : Bool :=
  let e := parseEntry bs
  e.rights &&& 0x78 == 0 && zeroAt bs 5 3 && e.base.toNat % 4096 == 0 && (e.limit.toNat + 1) % 4096 == 0 &&
  e.base.toNat ≤ e.limit.toNat

/-- An entry of an access table is in order. -/
def entryOk (bs : List Byte) : Bool := entryRangeOk bs && (parseEntry bs).masterLo.toNat ≤ (parseEntry bs).masterHi.toNat

/-- The fields of ACL_WRITE and ACL_READ are in range. -/
def aclHeadOk (c : Cmd) (most : Nat) : Bool :=
  let n := fieldAt c.params 4 2
  targetDefined (fieldAt c.params 0 2) && 1 ≤ n && n ≤ most && fieldAt c.params 2 2 + n ≤ 256 && zeroAt c.params 6 2

/-- The entries of ACL_WRITE as they travel. -/
def aclRaw (c : Cmd) : List (List Byte) :=
  (List.range (fieldAt c.params 4 2)).map fun i => slice c.params (8 + 24 * i) 24

/-- Entries are written: the caches stay, and the target's stale window opens. -/
def writeEntries (t first : Nat) (es : List AclEntry) (port : Fin 8) (s : State) : State :=
  let acl := (es.zipIdx).foldl (fun m e => SMap.put none m (t * 256 + first + e.2) (some e.1)) s.sec.acl
  logEvent 0x2011 [t, first, es.length, port.val]
    { s with sec := { s.sec with acl := acl, stale := SMap.put false s.sec.stale t true } }

/-- ACL_WRITE. -/
def cardAclWrite : Card where
  opcode := 0x0700
  critical := true
  cls := .security
  lengthOk := fun c => 8 ≤ c.paramLength.toNat && c.paramLength.toNat == 8 + 24 * fieldAt c.params 4 2
  param := fun c _ => inRange (aclHeadOk c 16 && (aclRaw c).all entryOk)
  run := fun c _ s =>
    let t := fieldAt c.params 0 2
    let s := writeEntries t (fieldAt c.params 2 2) ((aclRaw c).map parseEntry) c.port s
    answerOk (leBytes 4 (s.aclWord t)) s

/-- ACL_WRITE. -/
def execAclWrite (c : Cmd) (s : State) : Host.Outcome State Fault Refusal := .next (spatu cardAclWrite c s)

/-- ACL_READ. -/
def cardAclRead : Card where
  opcode := 0x0701
  critical := false
  cls := .identity
  lengthOk := fun c => c.paramLength == 8
  param := fun c _ => inRange (aclHeadOk c 64)
  run := fun c _ s =>
    let t := fieldAt c.params 0 2
    let first := fieldAt c.params 2 2
    answerOk ((List.range (fieldAt c.params 4 2)).map fun i => (s.aclEntry t (first + i)).bytes).flatten s

/-- ACL_READ. -/
def execAclRead (c : Cmd) (s : State) : Host.Outcome State Fault Refusal := .next (spatu cardAclRead c s)

/-- ACL_INVALIDATE. -/
def cardAclInvalidate : Card where
  opcode := 0x0702
  critical := false
  cls := .security
  lengthOk := fun c => c.paramLength == 4
  param := fun c _ =>
    let t := fieldAt c.params 0 2
    inRange ((t = 0xFFFF || targetDefined t) && zeroAt c.params 2 2)
  run := fun c _ s =>
    let t := fieldAt c.params 0 2
    let s := if t = 0xFFFF then clearCaches s else clearTarget t s
    answerOk (leBytes 4 s.sec.sweeps.toNat) s

/-- ACL_INVALIDATE. -/
def execAclInvalidate (c : Cmd) (s : State) : Host.Outcome State Fault Refusal := .next (spatu cardAclInvalidate c s)

/-- ACL_SWEEP: at the next device-time multiple of 1 ms every cache is cleared. -/
def execAclSweep (s : State) : Host.Outcome State Fault Refusal :=
  .next (let s := clearCaches (s.passTo (roundUp ticksPerMs s.time))
    { s with sec.sweeps := s.sec.sweeps + 1 })

/-! ### The reconcile sweep (R490, R491) -/

/-- The rank of the management view of a unit: the state of its dies. -/
def DieState.rank : DieState → Nat
  | .running => 0 | .fenced => 2 | .isolated => 3 | .off | .reset | .absent => 4

/-- The management view of unit `u` (Table 14.12). -/
def State.unitView (s : State) (u : Nat) : Nat :=
  if s.unitHeld u then 4 else ((unitDies u).map fun i => (s.die i).state.rank).foldl max 0

/-- The data-path view of unit `u`: its grout state, its power and dead-target isolation. -/
def State.unitPath (s : State) (u : Nat) : Nat :=
  let es := if 8 ≤ u then dieEndpoints (if u = 16 then 25 else u + 8) else []
  let dead := (!es.isEmpty && es.all s.isDead) || (u == 16 && s.gst.isolated)
  let own := match s.unitCode u with
    | 0 => 0
    | 1 | 2 => 1
    | 3 => if s.power.islands.getLsbD u then 2 else 4
    | _ => 4
  max own (if dead then 3 else 0)

/-- The views of the unit numbered as SEC_RECONCILE numbers them: management, data path (assumption log 61). -/
def State.views (s : State) (k : Nat) : Nat × Nat :=
  let dead (e : Endpoint) : Nat := if s.isDead e then 3 else 0
  if k < 17 then (s.unitView k, s.unitPath k)
  else if 32 ≤ k && k < 128 then
    let of (e : Nat) : Nat × Nat := (if (s.eng e).state == .wedged then 3 else 0, dead (engineEp e))
    let a := of (2 * (k - 32))
    if a.1 ≠ a.2 then a else of (2 * (k - 32) + 1)
  else if 128 ≤ k && k < 144 then (0, dead (dramEp (k - 128)))
  else
    let g := s.grp (k - 160)
    if !g.use then (4, 4) else (0, if g.state == .retired then 4 else 0)

/-- The units a sweep compares. -/
def sweptUnits : List Nat :=
  List.range 17 ++ (List.range 96).map (32 + ·) ++ (List.range 16).map (128 + ·) ++ (List.range 32).map (160 + ·)

/-- One sweep: each disagreement is logged when first found; neither view changes. -/
def reconcile (s : State) : State :=
  let bad := sweptUnits.filter fun k => (s.views k).1 ≠ (s.views k).2
  let new := bad.filter fun k => !s.sec.mismatched.contains k
  let v := new.map fun k => [k, (s.views k).1, (s.views k).2]
  let s := v.foldl (fun s p => logEvent 0x2020 p s) s
  { s with sec := { s.sec with
    disagreements := BitVec.ofNat 16 bad.length, mismatched := bad
    lastUnit := match new.getLast? with | some k => BitVec.ofNat 8 k | none => s.sec.lastUnit } }

/-- RECONCILE_SWEEP. -/
def execReconcileSweep (s : State) : Host.Outcome State Fault Refusal := .next (reconcile s)

/-! ### The guest gate (R486 to R489) -/

/-- The guest gate serves a guest die: an ML3-52G in its role, its guest trained. -/
def State.guestOn (s : State) : Bool := s.part.guestVariant && s.dev.role && !s.dieAbsent 25

/-- An answer to the guest from its gate. -/
def guestAnswer (r : GReq) (status : BitVec 4) (s : State) : State :=
  { s with gst.answers := s.gst.answers ++ [{ req := r, status, data := [], poison := 0 }] }

/-- The guest is isolated until the next full reset: what waits at the gate is answered ISOLATED, what is outstanding
at the guest TIMEOUT. -/
def isolateGuest (cause : Nat) (s : State) : State :=
  let held := s.gst.withheld
  let s := held.foldl (fun s r => guestAnswer r.1 2 s) { s with gst := { s.gst with isolated := true, withheld := [] } }
  let (waiting, delivered, s) := takeRequests (fun e => unitOf e == some 16) s
  let s := delivered.foldl (fun s r => answerTimeout r s) s
  let s := waiting.foldl (fun s r => answerIsolated r s) s
  logEvent 0x2031 [cause] (s.setDie 25 fun d => { d with state := .isolated })

/-- The guest table grants a request. -/
def State.guestGrants (s : State) (r : GReq) : Bool :=
  let a := r.addr.toNat
  let op := match r.op with | .read => 0 | .write => 1
  (List.range 64).any fun i => (s.gstEntry i).grants a (a + r.len.toNat) op

/-- A firewall denial (R487). -/
def guestViolation (r : GReq) (s : State) : State :=
  let w := match r.op with | .read => 0 | .write => 1
  let s := guestAnswer r 1 s
  let s := { s with gst := { s.gst with
    violations := satAdd s.gst.violations 1
    lastViol := BitVec.ofNat 64 (r.addr.toNat + w * 2 ^ 48 + 2 ^ 63) } }
  let iso := s.sec.policy.getLsbD 4 && !s.gst.isolated
  let s := raiseAlarm 4 (logEvent 0x2030 [r.addr.toNat, w] s)
  if iso then isolateGuest 1 s else s

/-- The bucket's capacity in bytes. -/
def Gst.capacity (g : Gst) : Nat := g.burst.toNat * 1024

/-- The bucket refilled up to the time `now`: rate times 100 MB/s is `rate` bytes in each tick. -/
def Gst.refill (g : Gst) (now : Nat) : Gst :=
  { g with tokens := min g.capacity (g.tokens + g.rate.toNat * (now - g.refillAt)), refillAt := now }

/-- The limiter lets a request pass. -/
def Gst.passes (g : Gst) (r : GReq) : Bool := g.rate == 0 || r.len.toNat + 1 ≤ g.tokens

/-- A request that has passed the firewall and the limiter enters grout; its tokens go. -/
def guestEnters (r : GReq) (s : State) : State :=
  let g := s.gst
  groutRequest r { s with gst.tokens := if g.rate = 0 then g.tokens else g.tokens - (r.len.toNat + 1) }

/-- A request of the guest die at its gate. -/
def guestRequest (r : GReq) (s : State) : State :=
  if !s.guestOn then s
  else
    let r := { r with src := if unitOf r.src == some 16 then r.src else { x := 0, y := 7, ep := 3 }, master := 0x18 }
    if s.gst.isolated then guestAnswer r 2 s
    else if !s.guestGrants r then guestViolation r s
    else
      let s := { s with gst := s.gst.refill s.time }
      if s.gst.withheld.isEmpty && s.gst.passes r then guestEnters r s
      else { s with gst.withheld := s.gst.withheld ++ [(r, s.time)] }

/-- GUEST_REQUEST. -/
def execGuestRequest (r : GReq) (s : State) : Host.Outcome State Fault Refusal := .next (guestRequest r s)

/-- The withheld requests the bucket lets pass enter in order, their waits counted; the first argument bounds them. -/
def releaseGuest : Nat → State → State
  | 0, s => s
  | n + 1, s =>
    match s.gst.withheld with
    | [] => s
    | (r, t) :: rest =>
      if s.gst.passes r then
        let us := (s.time - t) / 100
        releaseGuest n (guestEnters r { s with gst := { s.gst with withheld := rest, stallUs := satAdd s.gst.stallUs us } })
      else s

/-- The bucket refills until the first withheld request may pass (R488). -/
def limiterRefill (s : State) : State :=
  match s.gst.withheld with
  | [] => { s with gst := s.gst.refill s.time }
  | (r, _) :: rest =>
    let g := s.gst.refill s.time
    let wait := if g.rate = 0 then 0 else (r.len.toNat + 1 - g.tokens + g.rate.toNat - 1) / g.rate.toNat
    let s := s.elapse wait
    releaseGuest (rest.length + 1) { s with gst := g.refill s.time }

/-- GUEST_LIMITER_REFILL. -/
def execGuestLimiterRefill (s : State) : Host.Outcome State Fault Refusal := .next (limiterRefill s)

/-! ### GST_FIREWALL_SET, GST_ISOLATE (R489, R499) -/

/-- Every GST command completes with ISOLATED where there is no guest role. -/
def noGuest (s : State) : Option (BitVec 16) :=
  if s.part.guestVariant && s.dev.role then none else some Status.isolated

/-- The limiter is set: a bucket that had no limit starts full, another keeps its level within the new burst
(assumption log 62). -/
def setLimiter (rate burst : Nat) (s : State) : State :=
  let g := s.gst.refill s.time
  let g' := { g with rate := BitVec.ofNat 13 rate, burst := BitVec.ofNat 16 burst }
  { s with gst := { g' with tokens := if g.rate = 0 then g'.capacity else min g.tokens g'.capacity } }

/-- GST_FIREWALL_SET. -/
def cardGstFirewallSet : Card where
  opcode := 0x0410
  critical := true
  cls := .security
  lengthOk := fun c => c.paramLength == 28
  state := fun _ s => noGuest s
  param := fun c _ =>
    let a := fieldAt c.params 0 1
    inRange (zeroAt c.params 2 2 &&
      if a = 0 then fieldAt c.params 1 1 < 64 && entryRangeOk (slice c.params 4 24)
      else a = 1 && fieldAt c.params 4 2 < 8192 && 1 ≤ fieldAt c.params 6 2 && zeroAt c.params 8 20)
  run := fun c _ s =>
    let s := if fieldAt c.params 0 1 = 0 then
        { s with gst.table := SMap.put none s.gst.table (fieldAt c.params 1 1) (some (parseEntry (slice c.params 4 24))) }
      else setLimiter (fieldAt c.params 4 2) (fieldAt c.params 6 2) s
    answerOk (leBytes 4 s.gstState) s

/-- GST_FIREWALL_SET. -/
def execGstFirewallSet (c : Cmd) (s : State) : Host.Outcome State Fault Refusal := .next (spatu cardGstFirewallSet c s)

/-- GST_ISOLATE. -/
def cardGstIsolate : Card where
  opcode := 0x0411
  critical := true
  cls := .security
  lengthOk := fun c => c.paramLength == 4
  state := fun _ s => match noGuest s with | some st => some st | none => needs (!s.gst.isolated)
  param := fun c _ => inRange (zeroAt c.params 0 4)
  run := fun _ _ s =>
    let s := isolateGuest 0 s
    answerOk (leBytes 4 s.gstState) s

/-- GST_ISOLATE. -/
def execGstIsolate (c : Cmd) (s : State) : Host.Outcome State Fault Refusal := .next (spatu cardGstIsolate c s)

end Sys2Proof.Machine
end

