-- ==== Sys2Proof/Machine/BondRows.lean ====
section
/-!
DEFINITION. The events of the bond link (08), one definition per row.
-/
namespace Sys2Proof.Machine
open Sys2Proof

/-! ### Beats (R267 to R275) -/

/-- Rising edges of the run line in one beat (R268). -/
def State.runEdges (s : State) : Nat :=
  if s.cap.runLine = s.bond.beatLine then 1
  else match s.bond.locked.find? fun e => e.2.1 == s.cap.runLine && e.2.2 != 0 with
    | some e => e.2.2.toNat
    | none => 0

/-- Edge b + 1 of the beat line. -/
def beatEdge (stretchNs : Nat) (bySender : Bool) (s : State) : State :=
  if !s.gatePasses || s.frozen.getLsbD 3 || (s.groupsIn .up).any (fun g => (s.grp g).bufferFull) then s
  else
    let b := s.bond.beat.toNat + 1
    let late := stretchNs ≠ 0
    let lines := s.bond.beatLine.toNat :: (s.bond.locked.filter fun e => e.2.2 != 0).map fun e => e.2.1.toNat
    let s := { s with
      fab.edgeAt := lines.foldl (fun m l => SMap.put 0 m l (s.time + 1)) s.fab.edgeAt
      bond := { s.bond with
      acted := []
      beat := BitVec.ofNat 64 b
      stretchBeats := if late then satAdd s.bond.stretchBeats 1 else s.bond.stretchBeats
      stretchNs := s.bond.stretchNs + stretchNs
      overruns := if late && bySender then satAdd s.bond.overruns 1 else s.bond.overruns
      groups := SMap.mapAll {} s.bond.groups fun _ x => if x.use then x.present b else x } }
    let s := countEdges s.runEdges s
    let s := sendBeats (if s.bond.pipelined then b else b + 1) s
    holdDue (actDue s)

/-- BEAT_EDGE (R273, R280). -/
def execBeatEdge (stretchNs : Nat) (bySender : Bool) (s : State) : Host.Outcome State Fault Refusal :=
  .next (syncFreeze (bondSettle s (beatEdge stretchNs bySender s)))

/-! ### Frames (R276 to R278) -/

/-- A cumulative acknowledgement: every frame up to `ack` leaves the replay buffer. -/
def BondGroup.acked (x : BondGroup) (ack : BitVec 12) : BondGroup :=
  let left := x.replayBuf.filter fun f => 2048 ≤ (ack - f.seq).toNat
  { x with replayBuf := left, replayed := x.replayed.filter fun e => left.any fun f => f.seq.toNat == e.1 }

/-- A NAK naming the next sequence expected. -/
def sendNak (g : Nat) (s : State) : State := sendCtrlOn (.nak (s.grp g).recvSeq) g s

/-- An acknowledgement is taken: frames and requests that waited for room leave. -/
def takeAck (g : Nat) (ack : BitVec 12) (s : State) : State :=
  launchNext g (pump g (s.setGrp g fun x => x.acked ack))

/-- The samples of beat `n` reach a pipelined member whose capture still drains: a row of its bond section where the beat is
not after E (07 R250). -/
def captureRow (g : Nat) (n : Nat) (payload : List Byte) (s : State) : State :=
  match s.cap.capture with
  | some c =>
    if s.cap.draining && s.bond.pipelined && n ≤ c.beat.toNat then
      { s with cap.capture := some { c with rows := c.rows ++ [(g, n, payload)] } }
    else s
  | none => s

/-- A frame in order is taken: the samples of a beat wait for their presentation, or with exact wiring are presented
in the beat that runs; an operation becomes known. -/
def acceptFrame (g : Nat) (f : Frame) (s : State) : State :=
  let s := s.setGrp g fun x => { x with recvSeq := x.recvSeq + 1 }
  if f.kind ≠ 0 then s
  else
    let s := s.setGrp g fun x => { x with rxBeat := x.rxBeat + 1, incoming := x.incoming ++ [(x.rxBeat + 1, f.payload)] }
    let s := captureRow g (s.grp g).rxBeat.toNat f.payload s
    let s := if !s.bond.pipelined && (s.grp g).rxBeat = s.bond.beat + 1 then
        s.setGrp g fun x => x.present s.bond.beat.toNat
      else s
    match f.op with
    | some o => hearOp (some g) o s
    | none => s

/-- A frame arrives on an UP group (R277). What a control frame says has a row of its own; the acknowledgement in its header
counts here. -/
def beatFrame (g : Nat) (bytes : List Byte) (s : State) : State :=
  let x := s.grp g
  let f := frameOf bytes
  if x.state ≠ .up then s
  else if !frameGood bytes then
    let s := s.setGrp g fun x => { x with crc := satAdd x.crc 1 }
    if f.kind = 3 then s else sendNak g s
  else if f.session ≠ x.session then sendNak g s
  else
    let s := if f.ackValid then takeAck g f.ack s else s
    let ahead := (f.seq - x.recvSeq).toNat
    if f.kind = 3 || 2048 ≤ ahead then s
    else if ahead ≠ 0 || (f.kind = 0 && f.beat ≠ (x.rxBeat + 1).truncate 32) then sendNak g s
    else acceptFrame g f s

/-- BEAT_FRAME_RECEIVED (R277): the bytes of a frame, header and payload, then its CRC-64. -/
def execBeatFrameReceived (g : Fin 32) (words : List Byte) (crc : W64) (s : State) : Host.Outcome State Fault Refusal :=
  .next (syncFreeze (bondSettle s (beatFrame g (words ++ leBytes 8 crc.toNat) s)))

/-- A NAK: the frames before the one it names have arrived (assumption log 48), the rest is replayed. -/
def nakReceived (g : Nat) (seq : BitVec 12) (gap : Bool) (s : State) : State :=
  if (s.grp g).state ≠ .up || (s.grp g).holding then s
  else
    let s := takeAck g (seq - 1) s
    if (s.grp g).replayBuf.any (·.seq == seq) then replay g seq (b2n gap) s else s

/-- NAK_RECEIVED (R277). -/
def execNakReceived (g : Fin 32) (seq : BitVec 12) (gap : Bool) (s : State) : Host.Outcome State Fault Refusal :=
  .next (bondSettle s (nakReceived g seq gap s))

/-- The oldest frame has stayed unacknowledged for its timer. -/
def replayTimer (g : Nat) (s : State) : State :=
  let x := s.grp g
  if x.state ≠ .up || x.holding then s
  else match x.replayBuf with
    | [] => s
    | f :: _ => replay g f.seq 2 s

/-- REPLAY_TIMER_EXPIRY (R277). -/
def execReplayTimerExpiry (g : Fin 32) (s : State) : Host.Outcome State Fault Refusal :=
  .next (bondSettle s (replayTimer g s))

/-- GROUP_ACK_TIMEOUT (R289, T8.5). -/
def execGroupAckTimeout (g : Fin 32) (s : State) : Host.Outcome State Fault Refusal :=
  .next (bondSettle s
    (if (s.grp g).state = .up && !(s.grp g).holding && !(s.grp g).replayBuf.isEmpty then groupDown g 9 s else s))

/-! ### Time and domain operations (R280, R282) -/

/-- The part is the time root: the lowest member. -/
def State.isRoot (s : State) : Bool := !((List.range s.bond.device.toNat).any fun d => s.bond.members.getLsbD d)

/-- The time goes out in control frames on the UP groups, but for the one it came by. -/
def sendTime (from_ : Option Nat) (s : State) : State :=
  ((s.groupsIn .up).filter fun g => some g != from_).foldl (fun s g => sendCtrlOn (.time (BitVec.ofNat 64 s.time)) g s) s

/-- A millisecond passes (R282). A member that is not the root slews by at most 100 ppm towards the time that a time frame on
group `g` brought: the time it was sent and the group's t_link, in ticks of 10 ns. -/
def timeAlign (g : Nat) (sent : W64) (s : State) : State :=
  if !s.isMember then s.elapse ticksPerMs
  else if s.isRoot then sendTime none (s.elapse ticksPerMs)
  else if (s.grp g).state ≠ .up then s.elapse ticksPerMs
  else
    let offset : Int := (sent.toNat + (s.grp g).tLink.toNat / 10 : Nat) - (s.time : Int)
    let slew : Int := max (-10) (min 10 offset)
    sendTime (some g) { s with time := s.time + ((ticksPerMs : Int) + slew).toNat, bond.timeOffset := offset - slew }

/-- BOND_TIME_ALIGN (R282). -/
def execBondTimeAlign (m : TimeFrame) (s : State) : Host.Outcome State Fault Refusal := .next (timeAlign m.group m.sent s)

/-- DOMAIN_OP_RECEIVED (R280, R281). -/
def execDomainOpReceived (g : Fin 32) (op : DomOp) (s : State) : Host.Outcome State Fault Refusal :=
  .next (syncFreeze (bondSettle s (if (s.grp g).state = .up then hearOp (some g.val) op s else s)))

/-! ### Faults, holds and leaves (R289 to R292) -/

/-- When a DOWN group's resume window ends. -/
def State.resumeEnd (s : State) (g : Nat) : Nat := (s.grp g).downAt + s.bond.resumeMs.toNat * ticksPerMs

/-- The earliest resume window ends: its groups are held. -/
def resumeWindowEnd (s : State) : State :=
  match ((s.groupsIn .down).map s.resumeEnd).min? with
  | none => s
  | some t =>
    let s := s.passTo t
    let due := (s.groupsIn .down).filter fun g => s.resumeEnd g ≤ s.time
    due.foldl (fun s g => groupHeld g s) s

/-- RESUME_WINDOW_END (R290, 07 R251). -/
def execResumeWindowEnd (s : State) : Host.Outcome State Fault Refusal := .next (bondSettle s (resumeWindowEnd s))

/-- HOLD: the peer idles the group's lanes, which is no fault (T8.5). -/
def holdFrame (g : Nat) (s : State) : State :=
  if (s.grp g).state ≠ .up then s
  else
    let s := (groupLanes g).foldl (fun s l => s.setLane l fun x =>
      if x.state = .up || x.state = .retraining then { x.unlock with state := .idle } else x) s
    redomain (s.setGrp g fun x => { x with state := .peerHold, usable := 0, resuming := false })

/-- HOLD_FRAME_RECEIVED (T8.5). -/
def execHoldFrameReceived (g : Fin 32) (s : State) : Host.Outcome State Fault Refusal := .next (bondSettle s (holdFrame g s))

/-- RESUME: the group's idle lanes retrain, uncounted (R287), unless the part itself is in Hold. -/
def resumeFrame (g : Nat) (s : State) : State :=
  if (s.grp g).state ≠ .peerHold then s
  else
    let s := s.setGrp g fun x => { x with resuming := true }
    let s := if s.power.mode = .hold then s
      else (groupLanes g).foldl (fun s l => s.setLane l fun x => if x.state = .idle then { x with state := .retraining } else x) s
    groupResume g s

/-- RESUME_FRAME_RECEIVED (T8.5). -/
def execResumeFrameReceived (g : Fin 32) (s : State) : Host.Outcome State Fault Refusal := .next (bondSettle s (resumeFrame g s))

/-- PEER_HOLD_TIMEOUT (T8.5): 50 ms after RESUME. -/
def execPeerHoldTimeout (g : Fin 32) (s : State) : Host.Outcome State Fault Refusal :=
  .next (let x := s.grp g
    bondSettle s (if x.state = .peerHold && x.resuming && x.usableCount < 6 then groupDown g 2 s else s))

/-- LEAVE_RECEIVED (T8.5, R292). -/
def execLeaveReceived (g : Fin 32) (otherSession : Bool) (s : State) : Host.Outcome State Fault Refusal :=
  .next (bondSettle s (peerLeft g (if otherSession then 11 else 10) s))

/-! ### Tunnels (R283 to R285) -/

/-- A request for this part is issued on grout under the lane die's master ID; one for another member goes on along
its route, and without one is lost to its requester's timeout. -/
def tunnelArrived (g : Nat) (dest : BitVec 6) (r : GReq) (s : State) : State :=
  if dest = s.bond.device then
    if 0x400000000000 ≤ r.addr.toNat && r.addr.toNat < 0x500000000000 then sendRsp g { req := r, status := 5, data := [], poison := 0 } s
    else groutRequest { r with src := bondEp g r.addr.toNat, master := BitVec.ofNat 16 (0x20 + g / 4) } s
  else
    let route := SMap.look 0 s.bond.routes dest.toNat
    if route ≠ 0 && (s.grp (route - 1)).state = .up then
      launch (route - 1) { req := r, device := dest, addr := r.addr } (some g) s
    else s

/-- TUNNEL_REQUEST_ARRIVED (R284). -/
def execTunnelRequestArrived (g : Fin 32) (dest : BitVec 6) (r : GReq) (s : State) : Host.Outcome State Fault Refusal :=
  .next (tunnelArrived g dest r s)

/-- A response on a group: to its requester, on to the group its request came by, or too late. -/
def tunnelResponse (g : Nat) (r : GResp) (s : State) : State :=
  let x := s.grp g
  if x.tunnels.contains r.req then
    let s := s.setGrp g fun x => { x with tunnels := x.tunnels.erase r.req }
    launchNext g { s with grout.responses := s.grout.responses ++ [r] }
  else match x.forwards.find? (·.1 == r.req) with
    | some e => launchNext g (sendRsp e.2 r (s.setGrp g fun x => { x with forwards := x.forwards.erase e }))
    | none => logEvent 0x6141 [g, r.req.master.toNat] (s.setGrp g fun x => { x with txnLate := x.txnLate + 1 })

/-- TUNNEL_RESPONSE_ARRIVED (R285). -/
def execTunnelResponseArrived (g : Fin 32) (r : GResp) (s : State) : Host.Outcome State Fault Refusal :=
  .next (tunnelResponse g r s)

/-- 1 ms without a response. -/
def tunnelTimeout (g : Nat) (r : GReq) (s : State) : State :=
  let x := s.grp g
  if x.tunnels.contains r then
    launchNext g (respond r 3 (s.setGrp g fun x => { x with tunnels := x.tunnels.erase r }))
  else match x.forwards.find? (·.1 == r) with
    | some e => launchNext g (sendRsp e.2 { req := r, status := 3, data := [], poison := 0 } (s.setGrp g fun x => { x with forwards := x.forwards.erase e }))
    | none => s

/-- TUNNEL_TIMEOUT (R285). -/
def execTunnelTimeout (g : Fin 32) (r : GReq) (s : State) : Host.Outcome State Fault Refusal := .next (tunnelTimeout g r s)

/-! ### Relays (R286) -/

/-- The relay that holds the intake: its device, and the opcode, tag and flags of the inner packet. -/
def State.relay (s : State) : Option (Byte × Nat × Nat × Nat) :=
  match s.intake.busy with
  | some h =>
    if h.packet.opcode = 0x0A14 then
      let ps := h.packet.cmd.params
      some (nth 0 ps 0, fieldAt ps 4 2, fieldAt ps 6 2, fieldAt ps 12 2)
    else none
  | none => none

/-- 1.8 ms pass without the inner reply. -/
def relayTimeout (s : State) : State :=
  match s.relay with
  | none => s
  | some (d, op, tag, _) =>
    finishHeld Status.timeout [] { s with bond.relayLate := (d, BitVec.ofNat 16 op, BitVec.ofNat 16 tag) :: s.bond.relayLate }

/-- RELAY_TIMEOUT (R286). -/
def execRelayTimeout (s : State) : Host.Outcome State Fault Refusal := .next (relayTimeout s)

/-- An inner reply that comes after its relay's timeout. -/
def relayLate (op tag : Nat) (s : State) : State :=
  match s.bond.relayLate.find? fun e => e.2.1.toNat == op && e.2.2.toNat == tag with
  | none => s
  | some e => logEvent 0x6140 [e.1.toNat, op, tag] { s with bond.relayLate := s.bond.relayLate.erase e }

/-- The inner reply arrives. -/
def relayReply (reply : List Byte) (s : State) : State :=
  let (tag, op) := (fieldAt reply 0 2, fieldAt reply 10 2)
  match s.relay with
  | none => relayLate op tag s
  | some (d, op', tag', flags) =>
    if op ≠ op' || tag ≠ tag' then relayLate op tag s
    else if 65536 < reply.length then finishHeld Status.badLength [] s
    else if fieldAt reply 2 2 = 1 && bitAt flags 4 then
      match s.intake.busy with
      | none => s
      | some h =>
        let c := h.packet.cmd
        finishHeld Status.accepted [] (updEntry c.port c.source c.tag
          (fun e => { e with work := .relay d (BitVec.ofNat 16 tag) }) s)
    else finishHeld Status.ok reply s

/-- The inner notification completes the relay that was accepted. -/
def relayNotified (reply : List Byte) (s : State) : State :=
  let tag := BitVec.ofNat 16 (fieldAt reply 0 2)
  match s.intake.table.find? fun c => match c.work with | .relay _ t => t == tag && !c.done | _ => false with
  | none => s
  | some c =>
    finishEntry c.port c.source c.tag (BitVec.ofNat 16 (fieldAt reply 2 2))
      (slice reply 16 (min 256 (fieldAt reply 4 4))) s

/-- RELAY_REPLY_RECEIVED (R286). -/
def execRelayReplyReceived (reply : List Byte) (notification : Bool) (s : State) : Host.Outcome State Fault Refusal :=
  .next (if notification then relayNotified reply s else relayReply reply s)

/-! ### Training (R297) -/

/-- One group's training ends: UP with its lanes, its budget and a fresh frame layer, whose scramblers start as they will
(assumption log 82), or failed. -/
def trainOne (r : GroupTrain) (session : W32) (s : State) : State :=
  let g := r.group.val
  let fail (cause : BitVec 4) (s : State) : State :=
    logEvent 0x6111 [g, cause.toNat] (s.setGrp g fun x => { x with state := .trainFailed, cause })
  if (s.grp g).state ≠ .training then s
  else if s.laneDieOut (g / 4) then fail 6 s
  else if r.up then
    let good := (bitList r.usable.toNat 8).filter fun q =>
      (s.lane (8 * g + q)).state != .retired && (s.lane (8 * g + q)).state != .noRef
    let s := good.foldl (fun s q => s.setLane (8 * g + q) fun x => { x with state := .up, locked := true, step := 5 }) s
    let seeds : SMap (BitVec 58) := (List.range 8).foldl (fun m q => SMap.put 0 m q ((Config.free (s.freeNo + q)).truncate 58)) []
    let s := { s with freeNo := s.freeNo + 8 }
    let s := s.setGrp g fun x =>
      { x with state := .up, cause := 0, usable := good.foldl (fun m q => setBit m q true) (0 : BitVec 8), tLink := r.tLink, session
               sendSeq := 0, recvSeq := 0, replayBuf := [], replayed := [], rxBeat := 0, incoming := [], presented := []
               outgoing := [], resuming := false, holding := false, opsOut := [], scramblers := seeds }
    let s := rebudget g s
    let x := s.grp g
    logEvent 0x6110 [g, x.peerDevice.toNat, x.usable.toNat, x.tLink.toNat, x.kMin.toNat] s
  else fail r.cause s

/-- The devices that this part's UP groups connect it to (R264). -/
def State.ownPeers (s : State) : List (BitVec 6) := (s.groupsIn .up).map fun g => (s.grp g).peerDevice

/-- The devices within `n` hops of some others, `links` the pairs that a group connects. -/
def ball (links : List (BitVec 6 × BitVec 6)) : Nat → List (BitVec 6) → List (BitVec 6)
  | 0, ds => ds
  | n + 1, ds =>
    let near := links.flatMap fun l =>
      (if ds.contains l.1 then [l.2] else []) ++ if ds.contains l.2 then [l.1] else []
    ball links n (ds ++ (near.filter fun d => !ds.contains d).eraseDups)

/-- The domain graph's diameter in group hops, among the devices that a path joins, and whether it is connected (R264). -/
def diameter (members : List (BitVec 6)) (links : List (BitVec 6 × BitVec 6)) : Nat × Bool :=
  let reach (n : Nat) (d : BitVec 6) : Nat := (ball links n [d]).length
  let h := ((List.range 64).find? fun n => members.all fun d => reach n d == reach 63 d).getD 63
  (h, members.all fun d => members.all (ball links 63 [d]).contains)

/-- The training of the domain ends: groups without an outcome have timed out, BND_BEAT is 0 and the domain
STOPPED. The neighbour lists of the other members give H, D and the final status (R264, R280, R297); `kOthers` is their
largest K and `othersUp` whether all their groups are UP. -/
def trainDone (rs : List GroupTrain) (others : List (BitVec 6 × List (BitVec 6))) (kOthers : Byte) (othersUp : Bool) (session : W32)
    (s : State) : State :=
  if s.bond.state ≠ .training then s
  else
    let s := rs.foldl (fun s r => trainOne r session s) s
    let s := (s.groupsIn .training).foldl (fun s g =>
      logEvent 0x6111 [g, 7] (s.setGrp g fun x => { x with state := .trainFailed, cause := 7 })) s
    let members := (bitList s.bond.members.toNat 64).map (BitVec.ofNat 6)
    let links := (s.ownPeers.map fun d => (s.bond.device, d)) ++ others.flatMap fun m => m.2.map fun d => (m.1, d)
    let (hops, connected) := diameter members links
    let used := (List.range 32).filter fun g => (s.grp g).use
    let kOwn := ((used.map fun g => (s.grp g).k.toNat).max?).getD 0
    let kMax := if s.bond.pipelined then max kOwn kOthers.toNat else 0
    let ok := connected && (used.all fun g => (s.grp g).state == .up) && othersUp &&
      members.all fun d => d == s.bond.device || others.any (·.1 == d)
    let s := { s with bond := { s.bond with
      state := .stopped, beat := 0, txBeat := 0, hops := BitVec.ofNat 6 hops, dist := BitVec.ofNat 14 (stopDistance hops kMax)
      seenOps := [], ops := [], opSeq := 0, opArg := [], acted := [] } }
    let s := stopDut s
    finishOp 0x0A11 (if ok then Status.ok else Status.badState) s.trainBytes s

/-- BND_TRAIN_DONE (R297). -/
def execBndTrainDone (results : List GroupTrain) (others : List (BitVec 6 × List (BitVec 6))) (kMax : Byte) (allUp : Bool)
    (session : W32) (s : State) : Host.Outcome State Fault Refusal :=
  .next (bondSettle s (trainDone results others kMax allUp session s))

end Sys2Proof.Machine
end

