-- ==== Sys2Proof/Machine/BndRows.lean ====
section
/-!
DEFINITION. The BND commands (08 R295 to R300), one definition per row.
-/
namespace Sys2Proof.Machine
open Sys2Proof

/-! ### BND_DOMAIN_SET (R262, R263, R268, R296) -/

/-- The 8 parameter bytes of a group: use, rate, peer device, peer group, K, wires out and in. -/
def groupParam (ps : List Byte) (g i : Nat) : Nat := fieldAt ps (40 + 8 * g + i) 1

/-- The device number asked for: a parameter, or the straps. -/
def State.deviceAsked (s : State) (ps : List Byte) : Option Nat :=
  if fieldAt ps 1 1 = 1 then s.svp.bndId else some (fieldAt ps 2 1)

/-- A capture, restore or domain operation runs. -/
def State.opRuns (s : State) : Bool :=
  s.cap.phase != .idle || s.cap.domainOp || s.cap.armed.isSome || !s.bond.ops.isEmpty

/-- The groups that the parameters put into bond use. -/
def groupsAsked (ps : List Byte) : List Nat := (List.range 32).filter fun g => groupParam ps g 0 == 1

/-- A lane of the group has another use. -/
def State.groupLanesHeld (s : State) (g : Nat) : Bool :=
  (groupLanes g).any fun l => let u := (s.lane l).use; u != 0 && u != useBond

/-- The state BND_DOMAIN_SET needs. -/
def domainState (c : Cmd) (s : State) : Option (BitVec 16) :=
  let ps := c.params
  let st := s.bond.state
  if st == .training || st == .running || st == .frozen || s.opRuns then some Status.badState
  else if fieldAt ps 0 1 = 1 then none
  else if (groupsAsked ps).any fun g => s.laneDieOut (g / 4) then some Status.isolated
  else if fieldAt ps 1 1 = 1 && s.svp.bndId.isNone then some Status.badState
  else if (groupsAsked ps).any s.groupLanesHeld then some Status.badState
  else if (groupsAsked ps).any fun g => (s.grp g).state == .retired then some Status.retired
  else none

/-- The in-course clock limit of the grade in MHz (04 T4.7). -/
def State.clockLimit (s : State) : Nat := 600 + 100 * s.part.speedGrade.toNat

/-- A group's parameters are in range. -/
def groupOk (ps : List Byte) (pipelined : Bool) (g : Nat) : Bool :=
  let p := groupParam ps g
  p 0 ≤ 1 && p 7 == 0 &&
  (p 0 == 0 || (p 1 ≤ 2 && p 2 ≤ 63 && p 3 ≤ 31 && (if pipelined then 2 ≤ p 4 else p 4 == 0) && p 5 ≤ 64 && p 6 ≤ 64))

/-- A beat-locked line's parameters are in range: line and ratio. -/
def State.lockedOk (s : State) (ps : List Byte) (i : Nat) : Bool :=
  let (line, ratio) := (fieldAt ps (24 + 2 * i) 1, fieldAt ps (25 + 2 * i) 1)
  ratio == 0 || (2 ≤ ratio && ratio ≤ 64 && line ≤ 63 && line != fieldAt ps 20 1 &&
    ratio * 1000 ≤ s.clockLimit * fieldAt ps 16 4)

/-- Check step 8 of BND_DOMAIN_SET (T8.13). -/
def domainParam (c : Cmd) (s : State) : Bool :=
  let ps := c.params
  let pipelined := fieldAt ps 3 1 == 1
  fieldAt ps 0 1 == 1 ||
  (fieldAt ps 0 1 == 0 && fieldAt ps 1 1 ≤ 1 && fieldAt ps 3 1 ≤ 1 && fieldAt ps 4 4 != 0 &&
   (match s.deviceAsked ps with | some d => d ≤ 63 && bitAt (fieldAt ps 8 8) d | none => true) &&
   8 ≤ fieldAt ps 16 4 && fieldAt ps 16 4 ≤ 1000000 && fieldAt ps 20 1 ≤ 63 &&
   s.cap.dutLines.getLsbD (fieldAt ps 20 1) && (pipelined || (2 ≤ fieldAt ps 21 1 && 2 ≤ fieldAt ps 22 1)) &&
   zeroAt ps 23 1 && (List.range 8).all (s.lockedOk ps) && (List.range 32).all (groupOk ps pipelined) &&
   (List.range 64).all fun d => let r := fieldAt ps (296 + d) 1; r ≤ 31 || r == 0xFF)

/-- A group as BND_DOMAIN_SET leaves it. -/
def groupSet (ps : List Byte) (g : Nat) (old : BondGroup) : BondGroup :=
  let p := groupParam ps g
  if p 0 = 1 then
    { state := .configured, use := true, retired := old.retired, rate := BitVec.ofNat 2 (p 1)
      peerDevice := BitVec.ofNat 6 (p 2), peerGroup := BitVec.ofNat 5 (p 3), k := BitVec.ofNat 8 (p 4)
      wiresOut := BitVec.ofNat 7 (p 5), wiresIn := BitVec.ofNat 7 (p 6), tunnels := old.tunnels, forwards := old.forwards, queued := old.queued, ctrlOut := old.ctrlOut, sent := old.sent }
  else { retired := old.retired, tunnels := old.tunnels, forwards := old.forwards, queued := old.queued, ctrlOut := old.ctrlOut, sent := old.sent }

/-- The lane rate code of a bond rate (T8.1, 09 T9.2). -/
def bondLaneRate (r : Nat) : BitVec 4 := if r = 0 then 11 else if r = 1 then 13 else 14

/-- The lanes of a group take bond use, or leave it; a retired lane stays retired. -/
def groupLanesSet (ps : List Byte) (g : Nat) (s : State) : State :=
  let on := groupParam ps g 0 == 1
  (groupLanes g).foldl (fun s l => s.setLane l fun x =>
    if x.state = .retired then x
    else if on then { x.off with use := useBond, rate := bondLaneRate (groupParam ps g 1) }.judgeEq
    else if x.use = useBond then { x.off with use := 0, rate := 0 }.judgeEq else x) s

/-- Action 0: the domain is configured. -/
def configureDomain (ps : List Byte) (s : State) : State :=
  let dev := (s.deviceAsked ps).getD 0
  let s := (List.range 32).foldl (fun s g => groupLanesSet ps g (s.setGrp g (groupSet ps g))) s
  let locked := (List.range 8).foldl (fun (m : SMap (BitVec 6 × BitVec 7)) i =>
    let r := fieldAt ps (25 + 2 * i) 1
    SMap.put (0, 0) m i (if r = 0 then (0, 0) else (BitVec.ofNat 6 (fieldAt ps (24 + 2 * i) 1), BitVec.ofNat 7 r))) []
  let routes := (List.range 64).foldl (fun (m : SMap Nat) d =>
    let r := fieldAt ps (296 + d) 1
    SMap.put 0 m d (if r = 0xFF then 0 else r + 1)) []
  { s with bond := { s.bond with
    state := .configured, idSource := fieldAt ps 1 1 == 1, pipelined := fieldAt ps 3 1 == 1
    device := BitVec.ofNat 6 dev, beatLine := BitVec.ofNat 6 (fieldAt ps 20 1), domainId := BitVec.ofNat 32 (fieldAt ps 4 4)
    members := BitVec.ofNat 64 (fieldAt ps 8 8), beat := 0, txBeat := 0, period := BitVec.ofNat 20 (fieldAt ps 16 4)
    sampleDelay := BitVec.ofNat 8 (fieldAt ps 21 1), presentMargin := BitVec.ofNat 8 (fieldAt ps 22 1)
    stretchBeats := 0, stretchNs := 0, overruns := 0, freezeCause := 0, freezeGroup := 0, hops := 0, dist := 0
    locked, routes, seenOps := [], ops := [], opSeq := 0, opArg := [], acted := [] } }

/-- Action 1: LEAVE on every UP group, and the domain is unconfigured; its groups' lanes go off. -/
def leaveDomain (s : State) : State :=
  let s := sendLeave s
  let s := (List.range 32).foldl (fun s g => groupLanesSet [] g (s.setGrp g (groupSet [] g))) s
  { s with bond := { s.bond with state := .unconfigured, seenOps := [], ops := [], opArg := [], acted := [] } }

/-- BND_DOMAIN_SET. -/
def cardBndDomainSet : Card where
  opcode := 0x0A10
  critical := true
  cls := .operation
  lengthOk := fun c => c.paramLength == 360
  state := domainState
  param := fun c s => inRange (domainParam c s)
  run := fun c _ s =>
    let s := if fieldAt c.params 0 1 = 0 then configureDomain c.params s else leaveDomain s
    answerOk (leBytes 4 s.bndDomain) s

/-- BND_DOMAIN_SET. -/
def execBndDomainSet (c : Cmd) (s : State) : Host.Outcome State Fault Refusal := .next (spatu cardBndDomainSet c s)

/-! ### BND_TRAIN (R297) -/

/-- The groups of a mask that are in bond use. -/
def State.groupsNamed (s : State) (mask : Nat) : List Nat := (bitList mask 32).filter fun g => (s.grp g).use

/-- A lane of the group has no declared reference. -/
def State.noReference (s : State) (g : Nat) : Bool :=
  (groupLanes g).any fun l => (s.laneRef l (s.lane l).refSel).1 == 0

/-- The state BND_TRAIN needs; nothing trains while the main reference is derated (15 R514). -/
def trainState (c : Cmd) (s : State) : Option (BitVec 16) :=
  let gs := s.groupsNamed (fieldAt c.params 0 4)
  let st := s.bond.state
  if fieldAt c.params 4 1 = 0 then
    if (st != .configured && st != .stopped) || s.clk.derated then some Status.badState
    else if gs.any fun g => s.laneDieOut (g / 4) then some Status.isolated
    else if gs.any fun g => (s.grp g).state == .retired then some Status.retired
    else needs (!(gs.any s.noReference))
  else if fieldAt c.params 4 1 = 1 then needs ((st == .frozen || st == .held) && !s.clk.derated)
  else none

/-- One group starts training: its lanes bring themselves up. -/
def startTraining (g : Nat) (s : State) : State :=
  let s := s.setGrp g fun x => { x with state := .training, cause := 0, usable := 0 }
  (groupLanes g).foldl (fun s l =>
    if (s.lane l).state = .retired then s else startLane l (s.setLane l fun x => { x.off with use := useBond })) s

/-- Action 1: the lanes of DOWN and HELD groups that are neither UP nor retired retrain. -/
def recoverGroups (gs : List Nat) (c : Cmd) (s : State) : State :=
  let gs := gs.filter fun g => (s.grp g).state == .down || (s.grp g).state == .held
  let ls := (gs.flatMap groupLanes).filter fun l => (s.lane l).state != .up && (s.lane l).state != .retired
  let s := { s with lanes.waits := s.lanes.waits ++ [(ls, c.port, c.source, c.tag)] }
  let s := ls.foldl (fun s l => startRetrain l s) s
  finishWaits (gs.foldl (fun s g => checkRetired g (groupResume g s)) s)

/-- BND_TRAIN. -/
def cardBndTrain : Card where
  opcode := 0x0A11
  critical := true
  cls := .operation
  holdOk := fun _ _ => false
  background := fun c => fieldAt c.params 4 1 ≤ 1
  lengthOk := fun c => c.paramLength == 8
  state := trainState
  param := fun c _ => inRange (fieldAt c.params 4 1 ≤ 1 && zeroAt c.params 5 3)
  run := fun c _ s =>
    let gs := s.groupsNamed (fieldAt c.params 0 4)
    if fieldAt c.params 4 1 = 0 then
      (.accepted, gs.foldl (fun s g => startTraining g s) { s with bond.state := .training })
    else (.accepted, recoverGroups gs c s)

/-- BND_TRAIN. -/
def execBndTrain (c : Cmd) (s : State) : Host.Outcome State Fault Refusal := .next (spatu cardBndTrain c s)

/-! ### Windows, the resume window, relays and status (R298 to R300) -/

/-- BND_WINDOW_SET. -/
def cardBndWindowSet : Card where
  opcode := 0x0A12
  critical := true
  cls := .operation
  lengthOk := fun c => c.paramLength == 16
  param := fun c _ =>
    let ps := c.params
    inRange (fieldAt ps 0 1 ≤ 15 && fieldAt ps 1 1 ≤ 1 && fieldAt ps 2 1 ≤ 63 && zeroAt ps 3 5 &&
      fieldAt ps 8 8 % 4096 = 0 && fieldAt ps 8 8 ≤ 0xFF0000000000)
  run := fun c _ s =>
    let ps := c.params
    let w := fieldAt ps 0 1
    let win : Window := { en := fieldAt ps 1 1 == 1, device := BitVec.ofNat 6 (fieldAt ps 2 1), base := BitVec.ofNat 64 (fieldAt ps 8 8) }
    let s := { s with bond.windows := SMap.put {} s.bond.windows w win }
    answerOk ((List.range 3).flatMap fun i => leBytes 4 (s.readBnd (0x500 + 16 * w + 4 * i))) s

/-- BND_WINDOW_SET. -/
def execBndWindowSet (c : Cmd) (s : State) : Host.Outcome State Fault Refusal := .next (spatu cardBndWindowSet c s)

/-- BND_RESUME_SET: a window that has ended already holds the DOWN groups at once. -/
def cardBndResumeSet : Card where
  opcode := 0x0A13
  critical := true
  cls := .operation
  lengthOk := fun c => c.paramLength == 4
  param := fun c _ => inRange (fieldAt c.params 0 4 ≤ 60000)
  run := fun c _ s =>
    let s := { s with bond.resumeMs := BitVec.ofNat 16 (fieldAt c.params 0 4) }
    let due := (s.groupsIn .down).filter fun g => s.resumeEnd g ≤ s.time
    let s := due.foldl (fun s g => groupHeld g s) s
    let s := if due.isEmpty then s else domainTimeouts s
    answerOk (leBytes 4 s.bond.resumeMs.toNat) s

/-- BND_RESUME_SET. -/
def execBndResumeSet (c : Cmd) (s : State) : Host.Outcome State Fault Refusal := .next (spatu cardBndResumeSet c s)

/-- BND_RELAY: the inner packet leaves on the route towards its device, and the reply is awaited (R286). -/
def cardBndRelay : Card where
  opcode := 0x0A14
  critical := false
  cls := .operation
  background := fun c => bitAt (fieldAt c.params 12 2) 4
  lengthOk := fun c => 20 ≤ c.paramLength.toNat
  param := fun c s =>
    let d := fieldAt c.params 0 1
    inRange (d ≤ 63 && zeroAt c.params 1 3 && d ≠ s.bond.device.toNat && s.bond.members.getLsbD d)
  run := fun c _ s =>
    let r := SMap.look 0 s.bond.routes (fieldAt c.params 0 1)
    if r = 0 || (s.grp (r - 1)).state != .up then answerWith Status.isolated s
    else (.held false, sendTxnFrame (r - 1) 1 (c.params.drop 4) s)

/-- BND_RELAY. -/
def execBndRelay (c : Cmd) (s : State) : Host.Outcome State Fault Refusal := .next (spatu cardBndRelay c s)

/-- BND_STATUS. -/
def cardBndStatus : Card where
  opcode := 0x0A15
  critical := false
  cls := .identity
  lengthOk := fun c => c.paramLength == 0
  run := fun _ _ s =>
    let words (a n : Nat) : List Byte := (List.range n).flatMap fun i => leBytes 4 (s.readBnd (a + 4 * i))
    answerOk (words 0 20 ++ words 0x100 256 ++ words 0x500 64 ++ words 0x600 64) s

/-- BND_STATUS. -/
def execBndStatus (c : Cmd) (s : State) : Host.Outcome State Fault Refusal := .next (spatu cardBndStatus c s)

end Sys2Proof.Machine
end

