-- ==== Sys2Proof/Machine/GrtRows.lean ====
section
/-!
DEFINITION. Requests, responses, rounds, fences and the GRT commands (10), one definition per row.
-/
namespace Sys2Proof.Machine
open Sys2Proof

/-! ### Requests and responses -/

/-- GROUT_REQUEST (R339 to R343, R601). -/
def execGroutRequest (r : GReq) (s : State) : Host.Outcome State Fault Refusal := .next (groutRequest r s)

/-- The debug port's access ends: its status, and the word read (16 T16.3). -/
def debugAnswer (p : GResp) (s : State) : State :=
  if !s.dbg.accBusy || p.req.tag != s.dbg.accTag then s
  else
    let got := p.status = 0 && p.req.op == GOp.read
    { s with dbg := { s.dbg with
      accBusy := false, accStatus := p.status
      accData := if got then BitVec.ofNat 32 (fieldAt p.data 0 4) else s.dbg.accData
      accPoisoned := got && p.poison != 0 } }

/-- A response reaches a fabric port: it takes its place in the ir FIFO (04 R141, R144). -/
def portAnswer (q : Nat) (p : GResp) (s : State) : State :=
  match (s.port q).iq.find? (fun e => fillHeader e.2 == p.req) with
  | none => s
  | some e => s.setPort q fun x => { x with iq := x.iq.erase e, ir := x.ir ++ [(e.1, p)] }

/-- The bond group whose lane die endpoint this is. -/
def groupOfEp (e : Endpoint) : Nat := (if e.y = 0 then 0 else 16) + (e.x - 4) / 8 * 4 + (e.x - 4) % 8 / 2

/-- What the requester does with its response. -/
def sinkResponse (p : GResp) (s : State) : State :=
  let r := p.req
  let m := r.master.toNat
  match portOfEp r.src, laneDieOfEp r.src with
  | some q, _ => portAnswer q p s
  | _, some _ =>
    if m = 0x10 || m = 0x11 then bar4Answer (m - 0x10) p s else sendRsp (groupOfEp r.src) p s
  | _, _ =>
    if m = 2 then debugAnswer p s
    else if m = 3 then (if p.status = 0 then s else heldAfterDrain (captureAbort 10 s))
    else if m = 0x18 then { s with gst.answers := s.gst.answers ++ [p] }
    else s

/-- A forced fence discards the responses due to its unit's own requests (R360). -/
def State.discarded (s : State) (r : GReq) : Option Nat :=
  (List.range 17).find? fun u => (s.unit u).discards.contains r

/-- A response travels back: probes see it, its flow frees a packet, and it is sunk, or absorbed and counted where its
requester is dead or fenced off. -/
def deliverResponse (p : GResp) (s : State) : State :=
  let r := p.req
  let dst := (s.destOf r).map (·.ep)
  let s := match dst with
    | none => s
    | some d =>
      let k : Seen :=
        { header := headerBytes (match r.op with | .read => 0x81 | .write => 0x82) true (s.flowOf true d r.src).isSome r.mgmt r.src d
            r.tag r.master r.len (((s.flowOf true d r.src).map fun (f : Flow) => f.id).getD 0xFF) p.status p.poison
          response := true, guaranteed := (s.flowOf true d r.src).isSome, master := r.master, addr := r.addr.toNat
          flits := 1 + if p.status = 0 && r.op == GOp.read then unitsOf r else 0 }
      flowAnswered r d (probesSee d r.src k s)
  match s.discarded r with
  | some u =>
    { s.setUnit u (fun x => { x with discards := x.discards.erase r }) with grout.absorbed := satAdd s.grout.absorbed 1 }
  | none =>
    if s.isDead r.src then { s with grout.absorbed := satAdd s.grout.absorbed 1 } else sinkResponse p s

/-- The guest window (target 12): its answers are the guest die's. -/
def State.toGuest (s : State) (r : GReq) : Bool :=
  match s.destOf r with | some d => d.target == some 12 | none => false

/-- A response arrives: one that is under way, or the guest die's to a request delivered to it. Anything else from an
isolated endpoint is absorbed and counted (R356, 14 R489). -/
def groutResponse (p : GResp) (s : State) : State :=
  if s.grout.responses.contains p then
    deliverResponse p { s with grout.responses := s.grout.responses.erase p }
  else if s.toGuest p.req && s.gst.isolated then { s with gst.absorbed := satAdd s.gst.absorbed 1 }
  else if s.toGuest p.req && s.grout.inflight.contains p.req then
    deliverResponse p { s with grout.inflight := s.grout.inflight.erase p.req }
  else match s.destOf p.req with
    | some d => if s.isDead d.ep then { s with grout.absorbed := satAdd s.grout.absorbed 1 } else s
    | none => s

/-- GROUT_RESPONSE (R345, R356, R360). -/
def execGroutResponse (r : GResp) (s : State) : Host.Outcome State Fault Refusal := .next (groutResponse r s)

/-- ROUND_START (R350, R355). -/
def execRoundStart (s : State) : Host.Outcome State Fault Refusal := .next (startRound s)

/-- DEAD_TARGET (R356). -/
def execDeadTarget (e : Endpoint) (noResponse : Bool) (s : State) : Host.Outcome State Fault Refusal :=
  .next (deadTarget e noResponse s)

/-! ### Fences (R359, R360) -/

/-- FENCE_REQ reaches a router of the unit. -/
def fenceReq (u : Nat) (router : Nat) (s : State) : State :=
  if (s.unit u).state = .draining && (unitRouters u).contains router && !(s.unit u).reqRouters.contains router then
    s.setUnit u fun x => { x with reqRouters := router :: x.reqRouters }
  else s

/-- FENCE_REQ (R359). -/
def execFenceReq (unit : Fin 17) (router : Fin 576) (s : State) : Host.Outcome State Fault Refusal :=
  .next (fenceReq unit router s)

/-- A router that FENCE_REQ has reached returns DRAINED once the unit is quiet there. -/
def drainedFrom (u : Nat) (router : Nat) (s : State) : State :=
  let x := s.unit u
  if x.state = .draining && x.reqRouters.contains router && !x.drainedRouters.contains router && s.unitQuiet u router then
    let s := s.setUnit u fun x => { x with drainedRouters := router :: x.drainedRouters }
    if (unitRouters u).all (s.unit u).drainedRouters.contains then s.setUnit u fun x => { x with state := .drained } else s
  else s

/-- DRAINED (R359). -/
def execDrained (unit : Fin 17) (router : Fin 576) (s : State) : Host.Outcome State Fault Refusal :=
  .next (drainedFrom unit router s)

/-- FENCED (R359). -/
def execFenced (unit : Fin 17) (s : State) : Host.Outcome State Fault Refusal :=
  .next (if (s.unit unit).state = .drained then fenceDone unit false s else s)

/-- FENCE_DRAIN_TIMEOUT (R360). -/
def execFenceDrainTimeout (unit : Fin 17) (s : State) : Host.Outcome State Fault Refusal := .next (forceFence unit s)

/-! ### GRT_FENCE (R366) -/

/-- A brick's fence meets work that needs the brick. -/
def State.brickBusy (s : State) (n : Nat) : Bool :=
  s.loadUnderWay || s.cap.draining || s.fab.repairing ||
  ((s.coll n).running && !(s.coll n).dram)

/-- A lane die has a lane in bond or PCIe use. -/
def State.laneDieUsed (s : State) (m : Nat) : Bool :=
  (List.range 32).any fun i => let u := (s.lane (32 * m + i)).use; u == 1 || u == 2

/-- GRT_FENCE. -/
def cardGrtFence : Card where
  opcode := 0x0800
  critical := true
  cls := .operation
  background := fun _ => true
  lengthOk := fun c => c.paramLength == 4
  state := fun c s =>
    let u := fieldAt c.params 0 1
    if 16 < u then none
    else if s.unitHeld u then some Status.isolated
    else needs ((s.unit u).state == .running && !(8 ≤ u && u < 16 && s.laneDieUsed (u - 8)) && !(u < 8 && s.brickBusy u))
  param := fun c _ =>
    let ms := fieldAt c.params 2 2
    inRange (fieldAt c.params 0 1 ≤ 16 && zeroAt c.params 1 1 && 1 ≤ ms && ms ≤ 1000)
  run := fun c _ s =>
    let u := fieldAt c.params 0 1
    (.held true, s.setUnit u fun x =>
      { x with state := .draining, forced := false, timeouts := 0, startAt := s.time, drainMs := fieldAt c.params 2 2
               reqRouters := [], drainedRouters := [], cmd := some (c.port, c.source, c.tag) })

/-- GRT_FENCE. -/
def execGrtFence (c : Cmd) (s : State) : Host.Outcome State Fault Refusal := .next (spatu cardGrtFence c s)

/-! ### GRT_UNFENCE (R358, R367) -/

/-- Every endpoint of a lane die or the guest is isolated as dead. -/
def State.allDead (s : State) (u : Nat) : Bool :=
  let es := if 8 ≤ u then dieEndpoints (if u = 16 then 25 else u + 8) else []
  !es.isEmpty && es.all s.isDead

/-- The islands of a unit are powered. -/
def State.powered (s : State) (u : Nat) : Bool := s.power.islands.getLsbD u

/-- Kind 0 may return the unit: fenced, powered, and both views rank 0 once it returns (14 R490). -/
def State.mayUnfence (s : State) (u : Nat) : Bool :=
  (s.unit u).state == .fenced && s.powered u && !s.allDead u && (unitDies u).all fun i => (s.die i).state == .fenced

/-- Kind 1 may return the endpoint: dead, and a fabric port, or of a powered lane die or guest gate, of a unit whose views
rank 0 with it (14 R490). -/
def State.mayReturn (s : State) (e : Endpoint) : Bool :=
  s.isDead e && (match unitOf e with | some u => (s.unit u).state == .running && !s.unitHeld u | none => true) &&
  match portOfEp e, unitOf e with
  | some _, _ => true
  | none, some u => 8 ≤ u && s.powered u
  | none, none => false

/-- A dead endpoint returns; a fabric port's FIFOs are emptied and its tags discarded. -/
def returnEndpoint (e : Endpoint) (s : State) : State :=
  let s := { s with grout.dead := s.grout.dead.erase (epKey e) }
  let s := match portOfEp e with
    | some q => s.setPort q fun x => { x with tq := [], door := [], delivered := [], ir := [], iq := [] }
    | none => s
  isolateDies (logEvent 0x5012 [e.x, e.y, e.ep] s)

/-- The endpoint kind 1 names. -/
def unfenceEp (c : Cmd) : Endpoint := { x := fieldAt c.params 2 1, y := fieldAt c.params 3 1, ep := fieldAt c.params 4 1 }

/-- GRT_UNFENCE. -/
def cardGrtUnfence : Card where
  opcode := 0x0801
  critical := true
  cls := .operation
  lengthOk := fun c => c.paramLength == 8
  state := fun c s =>
    let k := fieldAt c.params 0 1
    let u := fieldAt c.params 1 1
    if k = 0 then (if 16 < u then none else needs (s.mayUnfence u))
    else if k = 1 then (if s.endpointExists (unfenceEp c) then needs (s.mayReturn (unfenceEp c)) else none)
    else none
  param := fun c s =>
    let k := fieldAt c.params 0 1
    inRange (zeroAt c.params 5 3 &&
      if k = 0 then fieldAt c.params 1 1 ≤ 16 && zeroAt c.params 2 3
      else k = 1 && zeroAt c.params 1 1 && s.endpointExists (unfenceEp c))
  run := fun c _ s =>
    if fieldAt c.params 0 1 = 0 then
      let u := fieldAt c.params 1 1
      let s := setUnitDies u .running (s.setUnit u fun x => { x with state := .running })
      let s := logEvent 0x5002 [u] s
      answerOk (leBytes 4 (s.unitWord u)) s
    else
      let s := returnEndpoint (unfenceEp c) s
      answerOk (leBytes 4 s.grout.stateWord) s

/-- GRT_UNFENCE. -/
def execGrtUnfence (c : Cmd) (s : State) : Host.Outcome State Fault Refusal := .next (spatu cardGrtUnfence c s)

/-! ### GRT_SLOT_SET (R351, R354, R368) -/

/-- The links of a route: router, output and hop. -/
def linksOf (src dst : Endpoint) : List ((Nat × Nat) × Nat × Nat) :=
  let path := route src dst
  (path.zipIdx).map fun p => (p.1, outputAt path p.1, p.2)

/-- The slots that existing flows hold on a link. -/
def State.linkSlots (s : State) (at_ : Nat × Nat) (dir : Nat) : List Nat :=
  (s.grout.flows.map fun f =>
    ((linksOf f.src f.dst).filter fun l => l.1 == at_ && l.2.1 == dir).flatMap fun l => f.slotsAt l.2.2).flatten

/-- Every link of a new flow has room: no slot held already, and at most 24 reserved. -/
def State.linksFree (s : State) (f : Flow) : Bool :=
  (linksOf f.src f.dst).all fun l =>
    let held := s.linkSlots l.1 l.2.1
    let mine := f.slotsAt l.2.2
    !(mine.any held.contains) && held.length + mine.length ≤ 24

/-- The flow that the parameters describe. -/
def flowParam (c : Cmd) : Flow :=
  let ps := c.params
  { id := fieldAt ps 1 1, network := fieldAt ps 2 1 == 1
    src := { x := fieldAt ps 4 1, y := fieldAt ps 5 1, ep := fieldAt ps 6 1 }
    dst := { x := fieldAt ps 7 1, y := fieldAt ps 8 1, ep := fieldAt ps 9 1 }
    slots := BitVec.ofNat 32 (fieldAt ps 12 4), active := false, removing := false, outstanding := 0 }

/-- The state action 0 needs. -/
def State.mayReserve (s : State) (f : Flow) : Option (BitVec 16) :=
  if !(s.endpointExists f.src && s.endpointExists f.dst) then some Status.badState
  else if (route f.src f.dst).any s.routerHeld then some Status.isolated
  else
    let there := (s.grout.flows.filter fun g => g.dst == f.dst).map Flow.count
    needs (!(s.grout.flows.any fun g => g.id == f.id) && s.linksFree f && there.sum + f.count ≤ 24)

/-- An endpoint as one payload item or parameter: X, Y and ep in byte order. -/
def epWord (e : Endpoint) : Nat := e.x + e.y * 2 ^ 8 + e.ep * 2 ^ 16

/-- GRT_SLOT_SET. -/
def cardGrtSlotSet : Card where
  opcode := 0x0802
  critical := true
  cls := .operation
  lengthOk := fun c => c.paramLength == 16
  state := fun c s =>
    let f := flowParam c
    if fieldAt c.params 0 1 = 0 && f.id ≤ 254 then s.mayReserve f else none
  param := fun c s =>
    let ps := c.params
    let f := flowParam c
    inRange (f.id ≤ 254 && fieldAt ps 2 1 ≤ 1 && zeroAt ps 3 1 && zeroAt ps 10 2 &&
      (if fieldAt ps 0 1 = 0 then f.slots != 0
       else fieldAt ps 0 1 = 1 && s.grout.flows.any fun g => g.id == f.id))
  run := fun c _ s =>
    let new := flowParam c
    let act := fieldAt c.params 0 1
    let f := if act = 0 then new else (s.grout.flows.find? fun g => g.id == new.id).getD new
    let flows := if act = 0 then s.grout.flows ++ [f]
      else s.grout.flows.map fun g => if g.id = f.id then { g with removing := true } else g
    let s := logEvent 0x5020 [act, f.id, b2n f.network, epWord f.src, epWord f.dst, f.slots.toNat]
      { s with grout.flows := flows }
    answerOk (leBytes 1 f.id ++ leBytes 1 (hops f.src f.dst) ++ [0, 0] ++ leBytes 4 f.slots.toNat) s

/-- GRT_SLOT_SET. -/
def execGrtSlotSet (c : Cmd) (s : State) : Host.Outcome State Fault Refusal := .next (spatu cardGrtSlotSet c s)

/-! ### GRT_PROBE_SET (R362, R363, R369) -/

/-- The probe that the parameters describe, with the counters it has. -/
def probeParam (ps : List Byte) (old : Probe) : Probe :=
  { old with en := fieldAt ps 4 1 == 1, outMask := BitVec.ofNat 5 (fieldAt ps 5 1), net := BitVec.ofNat 2 (fieldAt ps 6 1)
             cls := BitVec.ofNat 2 (fieldAt ps 7 1), masterLo := BitVec.ofNat 16 (fieldAt ps 8 2)
             masterHi := BitVec.ofNat 16 (fieldAt ps 10 2), record := fieldAt ps 12 1 == 1
             base0 := BitVec.ofNat 64 (fieldAt ps 16 8), mask0 := BitVec.ofNat 64 (fieldAt ps 24 8)
             base1 := BitVec.ofNat 64 (fieldAt ps 32 8), mask1 := BitVec.ofNat 64 (fieldAt ps 40 8) }

/-- A DRAM range lies inside one encryption region (07 R240). -/
def State.inRegion (s : State) (base length : Nat) : Bool :=
  (List.range 8).any fun r =>
    let m := s.region r
    m.state != .off && m.baseGiB.toNat * giB ≤ base && base + length ≤ (m.baseGiB.toNat + m.sizeGiB.toNat) * giB

/-- The counters of every probe cleared. -/
def clearProbes (s : State) : State :=
  { s with grout.probes := SMap.mapAll {} s.grout.probes fun _ p => { p with pkts := 0, flits := 0, hits0 := 0, hits1 := 0 }
           grout.pstoreLost := 0 }

/-- GRT_PROBE_SET. -/
def cardGrtProbeSet : Card where
  opcode := 0x0803
  critical := false
  cls := .operation
  lengthOk := fun c => c.paramLength == 64
  state := fun c s =>
    if fieldAt c.params 0 1 ≠ 1 then none
    else
      let (b, l) := (fieldAt c.params 48 8, fieldAt c.params 56 8)
      needs (!(s.grout.probes.any fun e => e.2.record) && (s.secAxis != .sealed || s.inRegion b l))
  param := fun c _ =>
    let ps := c.params
    let act := fieldAt ps 0 1
    inRange (act ≤ 2 && zeroAt ps 1 1 && zeroAt ps 13 3 &&
      (if act = 0 then
        fieldAt ps 2 2 < 576 && fieldAt ps 4 1 ≤ 1 && fieldAt ps 5 1 < 32 && fieldAt ps 6 1 < 4 && fieldAt ps 7 1 < 4 &&
        fieldAt ps 12 1 ≤ 1 && fieldAt ps 8 2 ≤ fieldAt ps 10 2
       else if act = 1 then fieldAt ps 48 8 % 4096 = 0 && 4096 ≤ fieldAt ps 56 8 && fieldAt ps 48 8 + fieldAt ps 56 8 ≤ 2 ^ 42
       else fieldAt ps 2 2 < 576))
  run := fun c _ s =>
    let ps := c.params
    let act := fieldAt ps 0 1
    if act = 0 then
      let r := fieldAt ps 2 2
      let p := probeParam ps (SMap.look {} s.grout.probes r)
      answerOk (leBytes 4 p.cfgWord) { s with grout := { s.grout with
        probes := SMap.put {} s.grout.probes r p, lossLogged := SMap.put false s.grout.lossLogged r false } }
    else if act = 1 then
      answerOk (leBytes 4 0) { s with grout := { s.grout with
        pstoreBase := BitVec.ofNat 64 (fieldAt ps 48 8), pstoreLen := BitVec.ofNat 64 (fieldAt ps 56 8), pstoreNext := 0 } }
    else
      let s := clearProbes s
      answerOk (leBytes 4 (SMap.look {} s.grout.probes (fieldAt ps 2 2)).cfgWord) s

/-- GRT_PROBE_SET. -/
def execGrtProbeSet (c : Cmd) (s : State) : Host.Outcome State Fault Refusal := .next (spatu cardGrtProbeSet c s)

/-! ### GRT_STATUS (R370) -/

/-- Bytes 4 to 47 of T10.13 as a probe holds them, then its counters. -/
def Probe.bytes (p : Probe) : List Byte :=
  leBytes 1 (b2n p.en) ++ leBytes 1 p.outMask.toNat ++ leBytes 1 p.net.toNat ++ leBytes 1 p.cls.toNat ++
  leBytes 2 p.masterLo.toNat ++ leBytes 2 p.masterHi.toNat ++ leBytes 1 (b2n p.record) ++ [0, 0, 0] ++
  leBytes 8 p.base0.toNat ++ leBytes 8 p.mask0.toNat ++ leBytes 8 p.base1.toNat ++ leBytes 8 p.mask1.toNat ++
  leBytes 8 p.pkts.toNat ++ leBytes 8 p.flits.toNat ++ leBytes 4 (p.hits0.toNat + p.hits1.toNat * 2 ^ 16)

/-- The words of a register block from offset `a` on, `n` of them. -/
def wordBytes (rd : Nat → Nat) (a n : Nat) : List Byte := ((List.range n).map fun i => leBytes 4 (rd (a + 4 * i))).flatten

/-- What GRT_STATUS returns. -/
def State.grtStatus (s : State) (kind sel : Nat) : List Byte :=
  if kind = 0 then wordBytes s.readGrt 0 7 ++ wordBytes s.readGrt 0x40 17 ++ leBytes 4 0
  else if kind = 1 then s.slotOwners sel
  else (SMap.look {} s.grout.probes sel).bytes

/-- GRT_STATUS. -/
def cardGrtStatus : Card where
  opcode := 0x0804
  critical := false
  cls := .identity
  lengthOk := fun c => c.paramLength == 8
  param := fun c _ =>
    let (k, sel) := (fieldAt c.params 0 1, fieldAt c.params 4 4)
    inRange (k ≤ 2 && zeroAt c.params 1 3 && (k ≠ 1 || sel &&& 0xFFC0F0F8 = 0) && (k ≠ 2 || sel < 576))
  run := fun c _ s => answerOk (s.grtStatus (fieldAt c.params 0 1) (fieldAt c.params 4 4)) s

/-- GRT_STATUS. -/
def execGrtStatus (c : Cmd) (s : State) : Host.Outcome State Fault Refusal := .next (spatu cardGrtStatus c s)

end Sys2Proof.Machine
end

