-- ==== Sys2Proof/Machine/CapCmds.lean ====
section
/-!
DEFINITION. The CAP commands (07 R214 to R216, R224, R245 to R248, R253 to R260), one definition per row.
-/
namespace Sys2Proof.Machine
open Sys2Proof

/-! ### Causes of refusals (T7.11) -/

/-- Records the cause of a command that a check refused. -/
def recordCause (restore : Bool) (st : BitVec 16) (cause : Option Nat) (s : State) : State :=
  match cause with
  | some c => capOutcome restore st c s
  | none => s

/-! ### CAP_TAKE (R233, R248, R254) -/

/-- The capture that the parameters of Table 7.15 ask for. -/
def takeOf (c : Cmd) : Take :=
  let ps := c.params
  { port := c.port, source := c.source, tag := c.tag, full := fieldAt ps 0 1 == 1, domain := fieldAt ps 2 1 == 1
    resume := fieldAt ps 3 1 == 1, at_ := if fieldAt ps 1 1 = 1 then some (BitVec.ofNat 64 (fieldAt ps 8 8)) else none
    area := BitVec.ofNat 64 (fieldAt ps 16 8), areaLength := BitVec.ofNat 64 (fieldAt ps 24 8) }

/-- The cause of a CAP_TAKE's BAD_STATE; a second arm is busy, as is a domain that stands still (08 R291). -/
def takeBlocked (ps : List Byte) (s : State) : Option Nat :=
  match s.capBlocked (fieldAt ps 2 1) with
  | some c => some c
  | none =>
    if fieldAt ps 0 1 < 2 && fieldAt ps 1 1 = 2 && s.cap.armed.isSome then some 2
    else if fieldAt ps 2 1 = 1 && (s.bond.state == .frozen || s.bond.state == .held || s.bond.state == .halted) then some 2
    else none

/-- The cause of a CAP_TAKE's BAD_PARAM: 0 a field, 12 a beat too soon, 1 the area. -/
def takeWrong (ps : List Byte) (s : State) : Option Nat :=
  let (kind, when_, scope) := (fieldAt ps 0 1, fieldAt ps 1 1, fieldAt ps 2 1)
  let (at_, area) := (fieldAt ps 8 8, fieldAt ps 16 8)
  if !(kind ≤ 2 && when_ ≤ 2 && scope ≤ 1 && fieldAt ps 3 1 ≤ 1 && zeroAt ps 4 4) then some 0
  else if kind = 2 then none
  else if when_ = 1 && scope = 1 && at_ < s.bond.beat.toNat + 1 + s.bond.dist.toNat then some 12
  else if when_ = 1 && scope = 0 && at_ ≤ s.cap.edges.toNat then some 0
  else if area % 4096 ≠ 0 || s.dram.installed.toNat ≤ area then some 1
  else if fieldAt ps 24 8 < s.requiredLength (kind = 1) then some 1
  else none

/-- A capture is taken now, at an edge or beat, or armed; in a domain on every member (R247). -/
def beginTake (t : Take) (armed : Bool) (s : State) : State :=
  let arg := areaArg t.area t.full t.resume
  if armed then
    let s := { s with cap.armed := some t }
    if t.domain then originateWith t.areaLength 8 arg s.soonest s else s
  else if t.domain then
    let s := syncOp { s with cap := { s.cap with phase := .awaitEdge, capture := some { take := t } } }
    originateWith t.areaLength 2 arg (t.at_.getD s.soonest) s
  else if t.at_.isNone && s.linesStopped then takeCapture t s
  else { s with cap := { s.cap with phase := .awaitEdge, capture := some { take := t } } }

/-- CAP_TAKE. -/
def cardCapTake : Card where
  opcode := 0x0500
  critical := true
  cls := .debug
  holdOk := fun _ _ => false
  background := fun c => fieldAt c.params 0 1 < 2
  lengthOk := fun c => c.paramLength == 32
  state := fun c s => needs (takeBlocked c.params s).isNone
  param := fun c s => inRange (takeWrong c.params s).isNone
  onFail := fun c st s =>
    if st = Status.badState then recordCause false st (takeBlocked c.params s) s
    else if st = Status.badParam then recordCause false st (takeWrong c.params s) s else s
  run := fun c _ s =>
    if fieldAt c.params 0 1 = 2 then
      let s := disarmCapture s
      answerOk [] (if fieldAt c.params 2 1 = 1 then originate 9 0 s.soonest s else s)
    else (.accepted, beginTake (takeOf c) (fieldAt c.params 1 1 == 2) s)

/-- CAP_TAKE. -/
def execCapTake (c : Cmd) (s : State) : Host.Outcome State Fault Refusal := .next (spatu cardCapTake c s)

/-! ### CAP_RESTORE (R226, R250, R255) -/

/-- The cause of a CAP_RESTORE's BAD_STATE: every DUT line must be stopped by run control (R226). -/
def restoreBlocked (ps : List Byte) (s : State) : Option Nat :=
  match s.capBlocked (fieldAt ps 1 1) with
  | some c => some c
  | none => if s.cap.allStopped || s.frozen.getLsbD 6 then none else some 3

/-- The cause of a CAP_RESTORE's BAD_PARAM. -/
def restoreWrong (ps : List Byte) : Option Nat :=
  if !(fieldAt ps 0 1 < 4 && fieldAt ps 1 1 ≤ 1 && zeroAt ps 2 6) then some 0
  else if fieldAt ps 8 8 % 4096 ≠ 0 then some 1 else none

/-- The restore begins; in a domain, on every member. -/
def startRestore (c : Cmd) (s : State) : State :=
  let ps := c.params
  let r : Restore :=
    { port := c.port, source := c.source, tag := c.tag, slabs := bitAt (fieldAt ps 0 1) 0, run := bitAt (fieldAt ps 0 1) 1
      domain := fieldAt ps 1 1 == 1, area := BitVec.ofNat 64 (fieldAt ps 8 8) }
  let s := beginRestore r (fieldAt ps 16 8) s
  if r.domain && s.cap.restore.isSome then
    originate 6 (areaArg r.area r.slabs r.run) s.soonest s
  else s

/-- CAP_RESTORE. -/
def cardCapRestore : Card where
  opcode := 0x0501
  critical := true
  cls := .debug
  holdOk := fun _ _ => false
  background := fun _ => true
  lengthOk := fun c => c.paramLength == 24
  state := fun c s => needs (restoreBlocked c.params s).isNone
  param := fun c _ => inRange (restoreWrong c.params).isNone
  onFail := fun c st s =>
    if st = Status.badState then recordCause true st (restoreBlocked c.params s) s
    else if st = Status.badParam then recordCause true st (restoreWrong c.params) s else s
  run := fun c _ s => (.accepted, startRestore c s)

/-- CAP_RESTORE. -/
def execCapRestore (c : Cmd) (s : State) : Host.Outcome State Fault Refusal := .next (spatu cardCapRestore c s)

/-! ### CAP_READBACK (R214 to R216, R253, R256) -/

/-- The live bits of a course: the place of each in the course's eight frames. -/
def State.liveBits (s : State) (n : Fin 8) (slab : Nat) : List (Nat × Bool) :=
  let les := ((courseLes n slab).map fun x =>
    let elem := 16 * x.tile + x.k.val
    let ffs := [(Config.fieldBit elem 15 0, s.ffVal x false), (Config.fieldBit elem 16 0, s.ffVal x true)]
    if s.isMemory x then
      ffs ++ (List.range 64).map fun i => (Config.fieldBit elem 0 i, (s.leMem x).getLsbD i)
    else ffs).flatten
  let at_ := (n.val, slab % 160, slab / 160)
  let keys := ((List.range 20).map fun d => [slab % 160, slab / 160].map fun k => (d, k)).flatten
  let seams := (keys.map fun dk => ((List.range 8).map fun i =>
    let g : SeamGroup := { seam := Fin.ofNat 10 (dk.1 / 2), dir := Fin.ofNat 2 dk.1, group := Fin.ofNat 1280 (8 * dk.2 + i) }
    if g.rxCourse = at_ then
      (List.range 32).map fun w => (Config.fieldBit (300 + 8 * dk.1 + i) 2 w, s.seamReg g w)
    else []).flatten).flatten
  les ++ seams

/-- Frame `f` of a brick as readback shows it (R214, R215): one strobe (assumption log 56). -/
def State.frameNow (s : State) (n : Fin 8) (f : Nat) : List Byte :=
  let live := if f < 204800 then (s.liveBits n (f / 8)).filter fun p => p.1 / 9216 == f % 8 else []
  (List.range 1152).map fun b =>
    live.foldl (fun v p => if p.1 % 9216 / 8 = b then setBit v (p.1 % 8) p.2 else v)
      (SMap.look 0 s.cfg.frameMem (frameKey n f b))

/-- The frames or records a CAP_READBACK asks for. -/
def State.readback (s : State) (n : Fin 8) (kind first count : Nat) : List Byte :=
  if kind = 0 then ((List.range count).map fun i => s.frameNow n (first + i)).flatten
  else ((List.range count).map fun i => courseRecord s.ffVal n (first + i)).flatten

/-- A load holds the brick. -/
def State.loadHolds (s : State) (n : Nat) : Bool := bitAt s.heldBricks n

/-- CAP_READBACK; in Sealed the data is encrypted under a fresh IV (assumption log 56). -/
def cardCapReadback : Card where
  opcode := 0x0502
  critical := false
  cls := .debug
  lengthOk := fun c => c.paramLength == 16
  state := fun c s =>
    let n := fieldAt c.params 0 1
    if n > 7 then none
    else if s.dieAbsent n then some Status.isolated
    else needs (!(s.loadHolds n || s.cap.draining))
  param := fun c _ =>
    let ps := c.params
    let (kind, first, count) := (fieldAt ps 1 1, fieldAt ps 4 4, fieldAt ps 8 4)
    let (last, most) := if kind = 0 then (204832, 56) else (25600, 1023)
    inRange (fieldAt ps 0 1 ≤ 7 && kind ≤ 1 && zeroAt ps 2 2 && zeroAt ps 12 4 && 1 ≤ count && count ≤ most &&
      first + count ≤ last)
  run := fun c _ s =>
    let ps := c.params
    let data := leBytes 8 s.time ++ s.readback (Fin.ofNat 8 (fieldAt ps 0 1)) (fieldAt ps 1 1) (fieldAt ps 4 4) (fieldAt ps 8 4)
    match s.sealKey with
    | some (k, _) =>
      let iv := (List.range 12).map (Config.freeByte s.freeNo)
      let x := Crypto.gcmCrypt k iv data
      answerOk (iv ++ x ++ Crypto.gcmTag k iv [] x) s.stepFree
    | none => answerOk data s

/-- CAP_READBACK. -/
def execCapReadback (c : Cmd) (s : State) : Host.Outcome State Fault Refusal := .next (spatu cardCapReadback c s)

/-! ### CAP_TRACE_SET (R235, R240, R257) -/

/-- The taps of the parameters: key (course * 16 + tap), source, and whether the item is in range. -/
def tapsOf (ps : List Byte) : List (Nat × Nat × Bool) :=
  (List.range (fieldAt ps 24 4)).map fun i =>
    let w := fieldAt ps (28 + 4 * i) 4
    (bitsAt w 0 15 * 16 + bitsAt w 28 4, bitsAt w 19 9, bitsAt w 15 4 == 0 && bitsAt w 0 15 < 25600)

/-- The taps of a collector with those of the parameters; a tap given again replaces its selection. -/
def addTaps (m : SMap Nat) (ps : List Byte) : SMap Nat := (tapsOf ps).foldl (fun m t => SMap.ins m t.1 t.2.1) m

/-- The collector as action 3 starts it. -/
def Collector.begin (c : Collector) (ps : List Byte) : Collector :=
  { c with running := true, dram := fieldAt ps 2 1 == 1, wrap := fieldAt ps 3 1 == 1, line := BitVec.ofNat 6 (fieldAt ps 4 1)
           base := BitVec.ofNat 64 (fieldAt ps 8 8), length := BitVec.ofNat 64 (fieldAt ps 16 8), blockSeq := 0, lost := 0
           lostRun := 0, samples := [], edges := 0, markNext := false, postCount := none, flush := false, byTrigger := false }

/-- The state that an action needs. -/
def traceState (ps : List Byte) (s : State) : Option (BitVec 16) :=
  let (n, action) := (fieldAt ps 0 1, fieldAt ps 1 1)
  if 7 < n then none
  else
    let c := s.coll n
    if action = 1 || action = 2 then needs (!c.running)
    else if action = 3 then
      let d := c.begin ps
      needs (!c.taps.isEmpty && d.blockBytes ≤ s.storeBytes n d &&
        (s.secAxis != .sealed || !d.dram || s.inRegion d.base.toNat d.length.toNat))
    else none

/-- The parameters of Table 7.18. -/
def traceParam (ps : List Byte) (s : State) : Bool :=
  let (n, action, store) := (fieldAt ps 0 1, fieldAt ps 1 1, fieldAt ps 2 1)
  let (base, len, count) := (fieldAt ps 8 8, fieldAt ps 16 8, fieldAt ps 24 4)
  n ≤ 7 && action ≤ 3 && zeroAt ps 5 3 &&
  (if action = 2 then 1 ≤ count && count ≤ 16377 && (tapsOf ps).all (·.2.2) && (addTaps (s.coll n).taps ps).length ≤ 32768
   else count == 0) &&
  (action != 3 || (store ≤ 1 && fieldAt ps 3 1 ≤ 1 && fieldAt ps 4 1 ≤ 63 &&
    (if store = 0 then base == 0 && len == 0 else base % 4096 == 0)))

/-- CAP_TRACE_SET. -/
def cardCapTraceSet : Card where
  opcode := 0x0503
  critical := false
  cls := .debug
  lengthOk := fun c => 28 ≤ c.paramLength.toNat && c.paramLength.toNat == 28 + 4 * fieldAt c.params 24 4
  state := fun c s => traceState c.params s
  param := fun c s => inRange (traceParam c.params s)
  run := fun c _ s =>
    let ps := c.params
    let (n, action) := (fieldAt ps 0 1, fieldAt ps 1 1)
    let s := s.setColl n fun x =>
      if action = 0 then (if x.running then x.halt false else x)
      else if action = 1 then { x with taps := [] }
      else if action = 2 then { x with taps := addTaps x.taps ps }
      else x.begin ps
    answerOk (leBytes 4 (s.traceWord n 0) ++ leBytes 4 (s.traceWord n 3)) s

/-- CAP_TRACE_SET. -/
def execCapTraceSet (c : Cmd) (s : State) : Host.Outcome State Fault Refusal := .next (spatu cardCapTraceSet c s)

/-! ### CAP_TRIGGER_SET (R241, R243, R258) -/

/-- A source code of Table 7.8 that unit `u` may take. -/
def sourceCodeOk (u v : Nat) : Bool :=
  v < 0x800 || (0x800 ≤ v && v < 0xC80) || v == 0xD00 || v == 0xD01 || v == 0xD10 || v == 0xD11 ||
  (0xE00 ≤ v && v < 0xE10 && v != 0xE00 + u) || v == 0xFFFF

/-- CAP_TRIGGER_SET. -/
def cardCapTriggerSet : Card where
  opcode := 0x0504
  critical := false
  cls := .debug
  lengthOk := fun c => c.paramLength == 32
  param := fun c _ =>
    let ps := c.params
    let u := fieldAt ps 0 1
    inRange (u ≤ 15 && fieldAt ps 1 1 ≤ 1 && fieldAt ps 2 1 ≤ 2 && fieldAt ps 3 1 < 32 && zeroAt ps 28 4 &&
      (List.range 4).all fun i => sourceCodeOk u (fieldAt ps (8 + 2 * i) 2))
  run := fun c _ s =>
    let ps := c.params
    let u := fieldAt ps 0 1
    let s := s.setTrig u fun t =>
      { t with armed := fieldAt ps 1 1 == 1, combine := BitVec.ofNat 2 (fieldAt ps 2 1), actions := BitVec.ofNat 5 (fieldAt ps 3 1)
               need := BitVec.ofNat 32 (fieldAt ps 4 4), count := 0
               inputs := (List.range 4).map fun i => BitVec.ofNat 16 (fieldAt ps (8 + 2 * i) 2)
               matchVal := BitVec.ofNat 64 (fieldAt ps 16 8), postCount := BitVec.ofNat 32 (fieldAt ps 24 4)
               seqPos := 0, last := false, firedAt := none, due := false }
    answerOk (leBytes 4 (s.trig u).stateWord) s

/-- CAP_TRIGGER_SET. -/
def execCapTriggerSet (c : Cmd) (s : State) : Host.Outcome State Fault Refusal := .next (spatu cardCapTriggerSet c s)

/-! ### CAP_CLOCK_RUN (R211, R212, R245 to R248, R259) -/

/-- op and scope of a CAP_CLOCK_RUN. -/
def runOp (ps : List Byte) : Nat × Nat := (fieldAt ps 0 1, fieldAt ps 1 1)

/-- Ops 1 to 5 start lines: refused while freeze bit 6 holds them (16 R554), while FAB_SEAM_REPAIR runs (04 R146) and
under a full drain or a restore (assumption log 57). Op 6 needs its lines stopped, or no image. -/
def runState (ps : List Byte) (s : State) : Option (BitVec 16) :=
  let (op, scope) := runOp ps
  let mask : W64 := BitVec.ofNat 64 (fieldAt ps 16 8)
  if scope = 1 && !s.isMember then some Status.badState
  else if 1 ≤ op && op ≤ 5 then
    needs (!(s.frozen.getLsbD 6 || s.fab.repairing || s.cap.phase == .fullDrain || s.cap.phase == .restoreLoading))
  else if op = 6 then
    needs (!(s.fab.repairing && s.power.mode != .hold && s.cap.stopped &&& ~~~mask != 0) && s.maskFree mask)
  else none

/-- The cause of a CAP_CLOCK_RUN's BAD_PARAM by Tables 7.9 and 7.20: 12 a beat too soon (R248), else 0; in a domain edge counts
are beats (R247). -/
def runWrong (ps : List Byte) (s : State) : Option Nat :=
  let (op, scope) := runOp ps
  let v := fieldAt ps 8 8
  let early : Option Nat := if v < s.bond.beat.toNat + 1 + s.bond.dist.toNat then some 12 else none
  let bad (b : Bool) : Option Nat := if b then some 0 else none
  if 6 < op || 1 < scope || !zeroAt ps 3 5 then some 0
  else if op = 2 then bad (v == 0)
  else if op = 3 then bad (v == 0 || scope == 0)
  else if op = 4 then (if scope = 1 then early else bad (decide (v ≤ s.cap.edges.toNat)))
  else if op = 5 then (if scope = 1 then early else some 0)
  else if op = 6 then bad (decide (63 < fieldAt ps 2 1) || !bitAt (fieldAt ps 16 8) (fieldAt ps 2 1))
  else none

/-- The command as it awaits its state. -/
def runOf (c : Cmd) : RunCmd := { port := c.port, source := c.source, tag := c.tag, op := fieldAt c.params 0 1 }

/-- The command awaits its state. -/
def awaitRun (c : Cmd) (s : State) : State := { s with cap.runCmds := s.cap.runCmds ++ [runOf c] }

/-- A run-control operation of the domain (R247): the code it travels with (assumption log 47); a step of n beats is a run to
the beat that ends it. -/
def runDomain (c : Cmd) (op v : Nat) (s : State) : Answer × State :=
  let ps := c.params
  (.held true,
    if op = 0 then originateStop (runOf c) s
    else if op = 1 then originateRun (runOf c) 0 (fun s => originate 3 0 s.soonest s) s
    else if op = 6 then originateMask (runOf c) (BitVec.ofNat 64 (fieldAt ps 16 8)) (BitVec.ofNat 6 (fieldAt ps 2 1)) s
    else
      let target : W64 := if op ≤ 3 then s.soonest + BitVec.ofNat 64 v else BitVec.ofNat 64 v
      originateRun (runOf c) 0 (fun s => originate 5 0 target s) s)

/-- A run-control operation of this part alone. -/
def runAlone (c : Cmd) (op v : Nat) (s : State) : Answer × State :=
  let ps := c.params
  if op = 0 then
    if s.cap.allStopped && s.power.mode != .hold then answerOk s.runData s
    else (.held true, awaitRun c { s with cap.stopDue := true })
  else if op = 1 then
    let s := syncFreeze (startDut s)
    answerOk s.runData s
  else if op = 6 then
    let s := syncFreeze (setMask (BitVec.ofNat 64 (fieldAt ps 16 8)) (BitVec.ofNat 6 (fieldAt ps 2 1)) s)
    answerOk s.runData s
  else
    let e := if op = 2 then s.cap.edges.toNat + v else v
    (.held true, awaitRun c (syncFreeze { startDut s with cap.stopAt := some (BitVec.ofNat 64 e) }))

/-- In Hold op 6, and op 0 of a domain, are kept until the part leaves it (R246). -/
def runInHold (c : Cmd) (domain : Bool) (s : State) : Answer × State :=
  let ps := c.params
  (.held true, { s with cap.afterHold := s.cap.afterHold ++
    [(runOf c, domain, BitVec.ofNat 64 (fieldAt ps 16 8), BitVec.ofNat 6 (fieldAt ps 2 1))] })

/-- CAP_CLOCK_RUN: in Hold only ops 0 and 6, which take effect when the part leaves it (R246). -/
def cardCapClockRun : Card where
  opcode := 0x0505
  critical := true
  cls := .debug
  holdOk := fun c _ => fieldAt c.params 0 1 == 0 || 5 < fieldAt c.params 0 1
  background := fun c => fieldAt c.params 0 1 ≤ 6
  lengthOk := fun c => c.paramLength == 24
  state := fun c s => runState c.params s
  param := fun c s => inRange (runWrong c.params s).isNone
  onFail := fun c st s =>
    if st = Status.badParam && runWrong c.params s == some 12 then capOutcome false st 12 s else s
  run := fun c _ s =>
    let (op, scope) := runOp c.params
    if s.power.mode == .hold && (op = 6 || scope = 1) then runInHold c (scope = 1) s
    else if scope = 1 then runDomain c op (fieldAt c.params 8 8) s
    else runAlone c op (fieldAt c.params 8 8) s

/-- CAP_CLOCK_RUN. -/
def execCapClockRun (c : Cmd) (s : State) : Host.Outcome State Fault Refusal := .next (spatu cardCapClockRun c s)

/-! ### CAP_STATUS (R260) -/

/-- The 304 bytes of CAP_STATUS. -/
def State.capStatus (s : State) : List Byte :=
  leBytes 4 s.capState ++ leBytes 4 s.capLast ++ leBytes 8 s.cap.dutLines.toNat ++ leBytes 8 s.cap.stopped.toNat ++
  leBytes 8 s.cap.edges.toNat ++ leBytes 8 s.cap.drain.toNat ++ leBytes 8 s.bond.beat.toNat ++
  ((List.range 8).map fun n => ((List.range 4).map fun i => leBytes 4 (s.traceWord n i)).flatten).flatten ++
  ((List.range 16).map fun u => leBytes 4 (s.trig u).stateWord ++ leBytes 4 (s.trig u).count.toNat).flatten

/-- CAP_STATUS. -/
def cardCapStatus : Card where
  opcode := 0x0506
  critical := false
  cls := .identity
  lengthOk := fun c => c.paramLength == 0
  run := fun _ _ s => answerOk s.capStatus s

/-- CAP_STATUS. -/
def execCapStatus (c : Cmd) (s : State) : Host.Outcome State Fault Refusal := .next (spatu cardCapStatus c s)

end Sys2Proof.Machine
end

