-- ==== Sys2Proof/Machine/CapRows.lean ====
section
/-!
DEFINITION. The events of captures, restores, run control, trace and triggers (07), one definition per row.
-/
namespace Sys2Proof.Machine
open Sys2Proof

/-- The reference edge of the part's own capture: its number, or `passed` edges from now (R254). -/
def captureEdge (passed : Nat) (s : State) : State :=
  match s.cap.capture with
  | none => s
  | some c =>
    if s.cap.phase ≠ .awaitEdge || c.take.domain || s.power.mode = .hold then s
    else
      let s := match c.take.at_ with
        | some e => { s with cap.edges := e }
        | none => countEdges passed s
      takeCapture c.take s

/-- CAPTURE_EDGE (R218 to R222). -/
def execCaptureEdge (passed : Nat) (s : State) : Host.Outcome State Fault Refusal := .next (syncFreeze (heldAfterDrain (captureEdge passed s)))

/-- CAPTURE_DRAIN_DONE (R220, R221, R254). -/
def execCaptureDrainDone (s : State) : Host.Outcome State Fault Refusal := .next (syncFreeze (heldAfterDrain (drainDone s)))

/-- RESTORE_LOAD_DONE (R227 to R229). -/
def execRestoreLoadDone (s : State) : Host.Outcome State Fault Refusal :=
  .next (syncFreeze (heldAfterDrain (restoreDone s)))

/-- A stop that is due is made at its reference edge: edge number c, or `passed` edges from now (R212, R245); the
beats of a domain count in BEAT_EDGE. -/
def dutStop (passed : Nat) (s : State) : State :=
  if s.power.mode = .hold then s
  else if s.cap.stopDue then runStopped (countEdges passed s)
  else match s.cap.stopAt with
    | some c => runStopped { s with cap.edges := c }
    | none => s

/-- DUT_STOP (R212). -/
def execDutStop (passed : Nat) (s : State) : Host.Outcome State Fault Refusal := .next (syncFreeze (heldAfterDrain (dutStop passed s)))

/-- The stop gates open: after a light capture's pause, or on the lines that run control holds; never under a full
drain or a restore (R220, R226), nor in Hold (R246). -/
def dutRestart (s : State) : State :=
  if s.power.mode = .hold then s
  else match s.cap.phase with
    | .pause => endLightPause s
    | .fullDrain | .restoreLoading => s
    | _ => startDut s

/-- DUT_RESTART (R212, R219). -/
def execDutRestart (s : State) : Host.Outcome State Fault Refusal := .next (syncFreeze (dutRestart s))

/-- TRACE_SAMPLE (R236, R239). -/
def execTraceSample (brick : Fin 8) (s : State) : Host.Outcome State Fault Refusal := .next (traceSample brick s)

/-- TRACE_BLOCK_WRITE (R237 to R239). -/
def execTraceBlockWrite (brick : Fin 8) (s : State) : Host.Outcome State Fault Refusal := .next (traceBlockWrite brick s)

/-- TRIGGER_SAMPLE (R241 to R243). -/
def execTriggerSample (unit : Fin 16) (passed : Nat) (active : List (BitVec 16)) (s : State) :
    Host.Outcome State Fault Refusal :=
  .next (syncFreeze (heldAfterDrain (triggerSample unit passed active s)))

/-- TRIGGER_FIRED (R244, R249). -/
def execTriggerFired (unit : Fin 16) (s : State) : Host.Outcome State Fault Refusal := .next (syncFreeze (heldAfterDrain (triggerActions unit s)))

end Sys2Proof.Machine
end

