-- ==== Sys2Proof/Machine/BusOps.lean ====
section
/-!
DEFINITION. Reads and writes that the part's own masters make anywhere in grout: the steward's image reads (11
R400), the configuration controller's fetches (06 R206), eye-scan records (09 R332). Reads that leave the part
are answered as what answers them will: free values (assumption log 11).
-/
namespace Sys2Proof.Machine
open Sys2Proof

/-- What a unit outside the model answers to a read. -/
def remoteRead (n : Nat) (s : State) : BitVec 4 × List (Byte × Bool) × State :=
  (Config.remoteStatus s.freeNo, (List.range n).map (fun i => (Config.remoteByte s.freeNo i, false)), s.stepFree)

/-- What a unit outside the model answers to a write. -/
def remoteWrite (s : State) : BitVec 4 × State := (Config.remoteStatus s.freeNo, s.stepFree)

/-- Reads `n` bytes of one 256-byte block at its destination, the access table passed. -/
def busTake (master a n : Nat) (s : State) : BitVec 4 × List (Byte × Bool) × State :=
  if a < 2 ^ 42 then
    match s.dramRefusal (dramPortOf a) a with
    | some st => (st, [], s)
    | none => dramRead master a n [] (drainPort (dramPortOf a) s)
  else if 0x100000000000 ≤ a && a < 0x100100000000 then
    let k := (a - 0x100000000000) / 2 ^ 29
    let o := (a - 0x100000000000) % 2 ^ 29
    match s.windowStatus k o with
    | some st => (st, [], s)
    | none =>
      let (bs, s) := windowRead k n o s
      (0, bs, s)
  else if 0x300000000000 ≤ a && a < 0x30000C000000 then
    let (e, o) := windowOf a
    if (s.eng e).holdStopped then remoteRead n s
    else if o < 0x60000 then
      let (bs, s) := engRead e o n s
      (0, bs, s)
    else if 0xF0000 ≤ o then
      let (bs, s) := readWords (readEngWord e) (o - 0xF0000) n s
      (0, bs.map fun b => (b, false), s)
    else (5, [], s)
  else if 0x3F0000000000 ≤ a && a < 0x3F0001000000 then
    let (bs, s) := readWords readHub (hubOffset a) n s
    (0, bs.map fun b => (b, false), s)
  else remoteRead n s

/-- The checks on the way of an own master's request: decode, isolation, the access table. -/
def busCheck (src : Endpoint) (master op a n : Nat) (s : State) : Option (BitVec 4) × State :=
  match s.decode a with
  | .inl st => (some st, s)
  | .inr d =>
    if s.routeBlocked src d.ep || s.unitOut d.ep || s.isDead d.ep then (some 2, s)
    else match d.target with
      | none => (none, s)
      | some t =>
        let (ok, s) := aclCheck t d.ep master a (a + n - 1) op s
        (if ok then none else some 1, s)

/-- Reads a run of bytes as master `master` under operation `op` of the access tables (0 R, 2 X): status, bytes with
their poison; the first refusal stops it and gives its status. -/
def busRead (src : Endpoint) (master op a n : Nat) (s : State) : BitVec 4 × List (Byte × Bool) × State :=
  (blocksOf n a (List.replicate n 0)).foldl (fun (acc : BitVec 4 × List (Byte × Bool) × State) p =>
    if acc.1 = 0 then
      match busCheck src master op p.1 p.2.length acc.2.2 with
      | (some st, s) => (st, acc.2.1, s)
      | (none, s) =>
        let (st, bs, s) := busTake master p.1 p.2.length s
        (st, acc.2.1 ++ bs, s)
    else acc) (0, [], s)

/-- Writes bytes of one 256-byte block at its destination, the access table passed. -/
def busPut (master a : Nat) (bs : List Byte) (s : State) : BitVec 4 × State :=
  if a < 2 ^ 42 then
    match s.dramRefusal (dramPortOf a) a with
    | some st => (st, s)
    | none => dramWrite master a (bs.map fun _ => true) bs 0 [] (drainPort (dramPortOf a) s)
  else if 0x100000000000 ≤ a && a < 0x100100000000 then
    let k := (a - 0x100000000000) / 2 ^ 29
    let o := (a - 0x100000000000) % 2 ^ 29
    match s.windowStatus k o with
    | some st => (st, s)
    | none => (0, windowWrite k o (bs.map fun b => (true, b, false)) s)
  else if 0x300000000000 ≤ a && a < 0x30000C000000 then
    let (e, o) := windowOf a
    if (s.eng e).holdStopped then remoteWrite s
    else if o < 0x60000 then (0, engWrite e o (bs.map fun b => (b, false)) s)
    else if 0xF0000 ≤ o then (0, writeWords (writeEngReg e) (o - 0xF0000) (bs.map fun _ => true) bs s)
    else (5, s)
  else if 0x3F0000000000 ≤ a && a < 0x3F0001000000 then
    (0, writeWords writeHub (hubOffset a) (bs.map fun _ => true) bs s)
  else remoteWrite s

/-- Writes a run of bytes as master `master`; the first refusal stops it and gives its status. -/
def busWrite (src : Endpoint) (master a : Nat) (bs : List Byte) (s : State) : BitVec 4 × State :=
  (blocksOf bs.length a bs).foldl (fun (acc : BitVec 4 × State) p =>
    if acc.1 = 0 then
      match busCheck src master 1 p.1 p.2.length acc.2 with
      | (some st, s) => (st, s)
      | (none, s) => busPut master p.1 p.2 s
    else acc) (0, s)

/-- The status a command takes from a read error: 11 R400, 06 R206. -/
def readError (st : BitVec 4) : BitVec 16 :=
  if st = 2 then Status.isolated else if st = 3 then Status.timeout else if st = 4 then Status.integrity else Status.badParam

end Sys2Proof.Machine
end

