-- ==== Sys2Proof/Machine/CfgOps.lean ====
section
/-!
DEFINITION. The image loader (06 R184 to R202): units of an image as they arrive, the header's checks, a chunk's
verification and decoding, the trailer, slab initialisation and the staged release.
-/
namespace Sys2Proof.Machine
open Sys2Proof

/-! ### Bytes and units (06 R184, R185) -/

/-- A load begins; it waits for its header. -/
def newLoad (source : LoadSource) (s : State) : State :=
  { s with cfg := { s.cfg with load := some { source }, bootAsked := none, frames := 0, bytes := 0 } }

/-- A payload length of Table 6.2. -/
def payloadOk (n : Nat) : Bool := n % 4 == 0 && decide (4 ≤ n) && decide (n ≤ 1048576)

/-- The bytes that complete the unit being received: the header, or a chunk with its tag; a chunk header that gives
no payload length of Table 6.2 stands alone. -/
def Load.need (l : Load) : Nat :=
  if l.phase == .awaitHeader then 128
  else if l.rx.length < 32 then 32
  else
    let n := fieldAt (l.rx.map (·.1)) 16 4
    if payloadOk n then 48 + n else 32

/-- Image bytes are received. -/
def loadBytes (bs : List (Byte × Bool)) (s : State) : State :=
  match s.cfg.load with
  | none => s
  | some l =>
    let l := { l with rx := l.rx ++ bs, bytes := l.bytes + bs.length }
    { s with cfg := { s.cfg with load := some l, bytes := BitVec.ofNat 64 l.bytes } }

/-! ### The header (06 R189, T6.1, T6.3) -/

/-- An encrypted image. -/
def encrypted (h : List Byte) : Bool := bitAt (fieldAt h 6 1) 0

/-- A partial image. -/
def isPartial (h : List Byte) : Bool := fieldAt h 5 1 == 1

/-- The bricks a header's mask names. -/
def headerMask (h : List Byte) : BitVec 8 := BitVec.ofNat 8 (fieldAt h 8 1)

/-- The one brick of a partial. -/
def partialBrick (h : List Byte) : Nat := (bitList (fieldAt h 8 1) 8).headD 0

/-- The region a header names (R191, R199). -/
def headerRegion (h : List Byte) : Region :=
  if isPartial h then
    .rect (Fin.ofNat 8 (partialBrick h)) (fieldAt h 32 2) (fieldAt h 34 2) (fieldAt h 36 2) (fieldAt h 38 2)
  else .bricks (headerMask h)

/-- Step 3 of Table 6.3: the fields it names within Table 6.1. -/
def headerFields (h : List Byte) : Bool :=
  fieldAt h 4 1 == 1 && decide (fieldAt h 5 1 ≤ 1) && decide (fieldAt h 6 1 ≤ 1) && zeroAt h 9 3 &&
  fieldAt h 16 8 % 4 == 0 && decide (fieldAt h 16 8 ≤ 8 * 2 ^ 30) && decide (1 ≤ fieldAt h 24 4) && zeroAt h 52 12 &&
  (!isPartial h || (decide (fieldAt h 32 2 ≤ fieldAt h 36 2) && decide (fieldAt h 36 2 ≤ 159) &&
    decide (fieldAt h 34 2 ≤ fieldAt h 38 2) && decide (fieldAt h 38 2 ≤ 159)))

/-- The image key slot that a header names holds a key; there are slots 0 to 3. -/
def State.imageKeyFilled (s : State) (h : List Byte) : Bool :=
  decide (fieldAt h 7 1 ≤ 3) && !(SMap.look [] s.sec.keys (4 + fieldAt h 7 1)).isEmpty

/-- A brick and its coping die are both present (DEV_DIE_PRESENT). -/
def State.brickPresent (s : State) (n : Nat) : Bool := bitAt s.diePresent n && bitAt s.diePresent (8 + n)

/-- The first check of Table 6.3 that a header fails, with the cause of Table 6.6 (assumption log 63). -/
def headerFault (l : Load) (h : List Byte) (s : State) : Option (BitVec 16 × Nat) :=
  let mask := fieldAt h 8 1
  let n := partialBrick h
  let device := fieldAt h 2 2
  if Crypto.sha256 (h.take 96) ≠ slice h 96 32 then some (Status.imageAuth, 1)
  else if fieldAt h 0 2 ≠ 0x4D4C || !(device == 0x0352 || (device == 0x0353 && s.part.guestVariant)) then
    some (Status.imageWrongDevice, 12)
  else if !headerFields h then some (Status.badParam, 12)
  else if (!encrypted h && s.secAxis != .blank) ||
      (encrypted h && !s.imageKeyFilled h) then some (Status.imageAuth, 13)
  else if !(bitList mask 8).all s.brickPresent then some (Status.imageMask, 14)
  else if !isPartial h && mask == 0 then some (Status.imageMask, 14)
  else if isPartial h && popCount mask 8 != 1 then some (Status.imageMask, 14)
  else if isPartial h && (!s.cfg.loaded.getLsbD n || (SMap.look 0 s.cfg.versions n).toNat != fieldAt h 28 4) then
    some (Status.imageMask, 15)
  else if s.cap.draining || s.fab.repairing || (l.source != .host && isPartial h) then some (Status.badState, 16)
  else none

/-- Two regions share a course. -/
def Region.overlaps (r q : Region) : Bool :=
  match r, q with
  | .bricks m, .bricks k => (m &&& k) != 0
  | .bricks m, .rect n _ _ _ _ => m.getLsbD n.val
  | .rect n _ _ _ _, .bricks m => m.getLsbD n.val
  | .rect n a b c d, .rect k e f g h => n == k && a ≤ g && e ≤ c && b ≤ h && f ≤ d

/-- The bricks a region has courses of. -/
def Region.bricksOf : Region → List Nat
  | .bricks m => bitList m.toNat 8
  | .rect k .. => [k.val]

/-- A region without the bricks of a mask. -/
def Region.minus (r : Region) (mask : BitVec 8) : Option Region :=
  match r with
  | .bricks m => if m &&& ~~~mask = 0 then none else some (.bricks (m &&& ~~~mask))
  | .rect n _ _ _ _ => if mask.getLsbD n.val then none else some r

/-- The course of an LE by its key. -/
def courseOfLe (k : Nat) : Nat × Nat × Nat :=
  let n := k / (640 * 640 * 16)
  let t := k / 16 % (640 * 640)
  (n, t % 640 / 4, t / 640 / 4)

/-- The flip-flops, memories, seam registers and slab ports of the courses of a region fall back to their initial
values (R199, 04 R112, 05 R158). -/
def clearRegion (r : Region) (s : State) : State :=
  let les := s.fab.les.filter fun e => let (n, a, b) := courseOfLe e.1; !r.covers n a b
  let regs := s.fab.seamRegs.filter fun e => let (n, a, b) := (groupOfKey e.1).rxCourse; !r.covers n a b
  let ports := s.coping.ports.filter fun e =>
    let slab := e.1 / 2 % 25600
    !r.covers (e.1 / 2 / 25600) (slab % 160) (slab / 160)
  let io := s.fab.io.filter fun e =>
    let c := ioCourse (Fin.ofNat 32 (e.1 / 48)) (Fin.ofNat 48 e.1)
    !r.covers c.brick.val c.a.val c.b.val
  { s with fab := { s.fab with les := les, seamRegs := regs, io := io }, coping := { s.coping with ports := ports } }

/-- A full image's header has passed (R191): the bricks of its mask and the hub clock frames are in reset, and every
other brick is unconfigured. -/
def beginFull (h : List Byte) (s : State) : State :=
  let mask := headerMask h
  let held := (s.cfg.held.filterMap (·.minus mask)) ++ [.bricks mask]
  let s := clearRegion (.bricks 0xFF) s
  { s with cfg := { s.cfg with
      loaded := 0, versions := [], identity := [], frameMem := [], held } }

/-- A partial's header has passed (R199): its rectangle is in reset. One that overlaps it and that a failed load left in
reset stays there until this load has verified (R195, R200). -/
def beginPartial (h : List Byte) (s : State) : State :=
  let r := headerRegion h
  let held := r :: s.cfg.held.filter (· != r)
  let word := fieldAt h 32 2 + fieldAt h 34 2 * 2 ^ 8 + fieldAt h 36 2 * 2 ^ 16 + fieldAt h 38 2 * 2 ^ 24
  let s := clearRegion r s
  { s with cfg := { s.cfg with
      held, region := BitVec.ofNat 32 word, regionBrick := BitVec.ofNat 5 (16 + partialBrick h) } }

/-- All 128 bytes of the header have arrived (R189): it is refused, and logged, or its region enters reset. -/
def takeHeader (l : Load) (s : State) : State :=
  let h := l.rx.map (·.1)
  let l := { l with header := h, rx := [] }
  let s := { s with cfg.load := some l }
  match headerFault l h s with
  | some (st, cause) =>
    loadStop st cause (logEvent 0x3010 [st.toNat, cause, fieldAt h 0 2, fieldAt h 2 2, fieldAt h 8 1] s)
  | none =>
    let s := if isPartial h then beginPartial h s else beginFull h s
    let s := dropHeldPorts (keepEdges linesFollow s)
    { s with cfg.load := some { l with phase := .writing, region := some (headerRegion h) } }

/-! ### Tokens (06 R187) -/

/-- Copies `n` bytes one at a time from `d` bytes back; the output newest first. -/
def copyBack : Nat → Nat → List Byte → List Byte
  | 0, _, out => out
  | n + 1, d, out => copyBack n d (nth 0 out (d - 1) :: out)

/-- Decodes tokens until the output has `size` bytes; `out` is newest first and `have_` its length. None where a rule
of R187 is broken. The first argument bounds the tokens. -/
def tokens (size : Nat) : Nat → List Byte → List Byte → Nat → Option (List Byte)
  | 0, _, _, _ => none
  | f + 1, inp, out, have_ =>
    if have_ = size then
      if inp.length ≤ 3 && inp.all (· == 0) then some out.reverse else none
    else match inp with
      | [] => none
      | t :: r =>
        if t.toNat < 0x80 then
          let n := t.toNat + 1
          if r.length < n || size < have_ + n then none
          else tokens size f (r.drop n) ((r.take n).reverse ++ out) (have_ + n)
        else if t.toNat < 0xC0 then
          let n := t.toNat - 0x7D
          match r with
          | v :: r =>
            if size < have_ + n then none else tokens size f r (List.replicate n v ++ out) (have_ + n)
          | [] => none
        else
          let n := t.toNat - 0xBC
          match r with
          | lo :: hi :: r =>
            let d := lo.toNat + hi.toNat * 256
            if d = 0 || have_ < d || size < have_ + n then none
            else tokens size f r (copyBack n d out) (have_ + n)
          | _ => none

/-! ### Chunks (06 R186, R192) -/

/-- The nonce of a chunk (R186). -/
def chunkIv (h : List Byte) (index : Nat) : List Byte :=
  leBytes 4 (fieldAt h 40 4 ^^^ index) ++ slice h 44 8

/-- The tag of a chunk passes (R186). -/
def chunkTagOk (h u : List Byte) (s : State) : Bool :=
  let n := fieldAt u 16 4
  let (head, body, tag) := (slice u 0 32, slice u 32 n, slice u (32 + n) 16)
  if encrypted h then
    Crypto.gcmTag (SMap.look [] s.sec.keys (4 + fieldAt h 7 1)) (chunkIv h (fieldAt u 0 4)) head body == tag
  else (Crypto.sha256 (head ++ body)).take 16 == tag

/-- The payload in clear. -/
def chunkPayload (h u : List Byte) (s : State) : List Byte :=
  let body := slice u 32 (fieldAt u 16 4)
  if encrypted h then
    Crypto.gcmCrypt (SMap.look [] s.sec.keys (4 + fieldAt h 7 1)) (chunkIv h (fieldAt u 0 4)) body
  else body

/-- The target and the range of a chunk lie in the image's region (R192). -/
def chunkRangeOk (h u : List Byte) : Bool :=
  let (kind, target, first, count) := (fieldAt u 4 1, fieldAt u 5 1, fieldAt u 8 4, fieldAt u 12 4)
  let inRect (course : Nat) : Bool := (headerRegion h).covers target (course % 160) (course / 160)
  if kind = 2 then target == 0xFF && count == 0 && fieldAt u 6 1 == 0 && fieldAt u 16 4 == 16
  else if kind = 0 && target = 8 then !isPartial h && decide (first + count ≤ 16)
  else if 7 < target || !(headerMask h).getLsbD target then false
  else if kind = 0 then
    if isPartial h then
      decide (first + count ≤ 204800) && (List.range count).all fun i => inRect ((first + i) / 8)
    else decide (first + count ≤ 204832)
  else
    decide (first + count ≤ 25600) && (!isPartial h || (List.range count).all fun i => inRect (first + i))

/-- The output of a chunk, or the cause of its failure (T6.6): 2 its tag, 3 its content, 4 poison. -/
def checkChunk (l : Load) (marked : List (Byte × Bool)) (s : State) : Nat ⊕ List Byte :=
  let h := l.header
  let u := marked.map (·.1)
  let kind := fieldAt u 4 1
  if !payloadOk (fieldAt u 16 4) then .inl 3
  else if !chunkTagOk h u s then .inl 2
  else if fieldAt u 0 4 ≠ l.lastIndex + 1 || 2 < kind || 1 < fieldAt u 6 1 || !zeroAt u 7 1 || !zeroAt u 20 12 ||
      !chunkRangeOk h u then .inl 3
  else
    let payload := chunkPayload h u s
    let size := if kind = 2 then 16 else fieldAt u 12 4 * (if kind = 0 then 1152 else 16384)
    let out := if fieldAt u 6 1 = 1 then tokens size (payload.length + 1) payload [] 0
      else if payload.length = size then some payload else none
    match out with
    | none => .inl 3
    | some out => if marked.any (·.2) then .inl 4 else .inr out

/-- A chunk fails verification (R192): it writes nothing and ends the load. -/
def chunkFails (index cause : Nat) (l : Load) (s : State) : State :=
  loadStop Status.imageAuth cause (logEvent 0x3011 [index, cause, l.frames] s)

/-- The slab contents of a chunk reach coping memory. -/
def writeSlabs (n first : Nat) (out : List Byte) (s : State) : State :=
  { s with coping := { s.coping with
      mem := SMap.putRun {} s.coping.mem (slabKey n first 0) (out.map fun v => MByte.store v false) } }

/-- A verified chunk of frames or slab contents is written (R192). -/
def writeChunk (u out : List Byte) (l : Load) (s : State) : State :=
  let (n, first, count) := (fieldAt u 5 1, fieldAt u 8 4, fieldAt u 12 4)
  if fieldAt u 4 1 = 0 then
    let l := { l with frames := l.frames + count }
    { s with cfg := { s.cfg with
        load := some l, frames := BitVec.ofNat 32 l.frames
        frameMem := SMap.putRun 0 s.cfg.frameMem (frameKey n first 0) out } }
  else
    let l := { l with
      slabs := l.slabs + count, gotSlabs := l.gotSlabs ++ (List.range count).map fun i => n * 25600 + first + i }
    writeSlabs n first out { s with cfg.load := some l }

/-! ### The trailer (06 R188, R193; 05 R160) -/

/-- What every slab of a cascade must share (05 R160). -/
def SlabCfg.shared (c : SlabCfg) : Nat × Bool × SlabPortCfg × SlabPortCfg × Bool :=
  (c.casLen, c.simple, c.a, c.b, c.winnerB)

/-- The cascade that a slab says it is part of is consistent (05 R160). -/
def State.cascadeOk (s : State) (n slab : Nat) : Bool :=
  let c := s.slabCfg n slab
  if c.casLen = 0 then true
  else
    let b := slab / 160
    decide (c.casPos ≤ b) && decide (b - c.casPos + c.casLen ≤ 159) &&
    (List.range (c.casLen + 1)).all fun j =>
      let d := s.slabCfg n ((b - c.casPos + j) * 160 + slab % 160)
      d.casPos == j && decide (d.shared = c.shared)

/-- The slabs of a region, by brick * 25600 + slab. -/
def Region.slabs (r : Region) : List Nat :=
  (List.range 204800).filter fun i => r.covers (i / 25600) (i % 25600 % 160) (i % 25600 / 160)

/-- The checks of the whole written image (R193). -/
def imageOk (l : Load) (s : State) : Bool :=
  match l.region with
  | none => false
  | some r =>
    let bricks := bitList (fieldAt l.header 8 1) 8
    (bricks.all fun n => (List.range 25600).all fun slab => s.cascadeOk n slab) &&
    (r.slabs.all fun i => (s.slabCfg (i / 25600) (i % 25600)).init != 2 || l.gotSlabs.contains i) &&
    (l.gotSlabs.all fun i => (s.slabCfg (i / 25600) (i % 25600)).init == 2)

/-- A verified trailer chunk (R188, R193). -/
def takeTrailer (u out : List Byte) (l : Load) (s : State) : State :=
  let index := fieldAt u 0 4
  let s := { s with cfg.load := some l }
  if fieldAt out 0 4 ≠ fieldAt l.header 24 4 || fieldAt out 0 4 ≠ index || fieldAt out 4 4 ≠ l.frames ||
      fieldAt out 8 4 ≠ l.slabs || l.bytes ≠ fieldAt l.header 16 8 then loadTruncated 10 s
  else if !zeroAt out 12 4 || Crypto.sha256 l.body ≠ slice l.header 64 32 || !imageOk l s then
    chunkFails index 3 l s
  else { s with cfg.load := some { l with phase := .verifying } }

/-- A whole chunk with its tag has arrived (R192, R193). -/
def takeChunk (l : Load) (s : State) : State :=
  let u := l.rx.map (·.1)
  match checkChunk l l.rx s with
  | .inl cause => chunkFails (fieldAt u 0 4) cause l { s with cfg.load := some { l with rx := [] } }
  | .inr out =>
    let l := { l with rx := [], body := l.body ++ u, lastIndex := fieldAt u 0 4 }
    if fieldAt u 4 1 = 2 then takeTrailer u out l s else writeChunk u out l s

/-- A unit that is complete is taken. -/
def takeUnit (s : State) : State :=
  match s.cfg.load with
  | none => s
  | some l =>
    if !l.unfinished || l.rx.length < l.need then s
    else if l.phase == .awaitHeader then takeHeader l s else takeChunk l s

/-- Delivered bytes are received unit by unit; the bytes left once the load takes no more are ignored. The first
argument bounds the pieces. -/
def feed : Nat → List (Byte × Bool) → State → List (Byte × Bool) × State
  | 0, bs, s => (bs, s)
  | _ + 1, [], s => ([], s)
  | f + 1, bs, s =>
    match s.cfg.load with
    | none => (bs, s)
    | some l =>
      if !l.unfinished then (bs, s)
      else
        let k := l.need - l.rx.length
        feed f (bs.drop k) (takeUnit (loadBytes (bs.take k) s))

/-- Bytes reach the load of a host session: the status of the CFG_DATA that delivers them (R206). -/
def deliverImage (bs : List (Byte × Bool)) (s : State) : BitVec 16 × State :=
  let (left, s) := feed (bs.length + 1) bs s
  match s.cfg.load with
  | some l =>
    if l.phase == .failed then (s.cfg.lastStatus, s)
    else (if left.isEmpty then Status.ok else Status.badState, s)
  | none => (Status.badState, s)

/-! ### Boot memory (06 R196, R197) -/

/-- Byte `i` of a boot image: none where the boot memory cannot be read there. -/
def State.bootByte (s : State) (fallback : Bool) (i : Nat) : Option Byte :=
  let base := if fallback then 0x80000000 else 0
  let (device, off) := if s.cfg.bootPins = 2 then (i / 256 % 2, base + i / 512 * 256 + i % 256) else (0, base + i)
  let at_ := device * 2 ^ 32 + off
  if 2 ^ 32 ≤ off || SMap.look false s.part.ospiFail (at_ / 256) then none
  else some (SMap.look 0xFF s.part.ospi at_)

/-- Reads `n` bytes of a boot image. -/
def State.bootRead (s : State) (fallback : Bool) (i n : Nat) : Option (List (Byte × Bool)) :=
  (List.range n).mapM fun k => (s.bootByte fallback (i + k)).map fun v => (v, false)

/-- A boot load reads `n` more bytes of its image; a read that fails ends it with cause 11 (R194). -/
def bootFetch (n : Nat) (s : State) : State :=
  match s.cfg.load with
  | some l =>
    match l.source with
    | .host => s
    | .boot fb =>
      match s.bootRead fb l.bootPos n with
      | none => loadTruncated 11 s
      | some bs => loadBytes bs { s with cfg.load := some { l with bootPos := l.bootPos + n } }
  | none => s

/-- What a load still lacks of the unit it receives. -/
def State.lacks (s : State) : Nat :=
  match s.cfg.load with
  | some l => if l.unfinished then l.need - l.rx.length else 0
  | none => 0

/-- The next unit of a boot image is read whole. -/
def bootUnit (s : State) : State :=
  let s := if s.lacks = 0 then s else bootFetch s.lacks s
  if s.lacks = 0 then s else bootFetch s.lacks s

/-- The kind of the chunk that a load has begun to receive. -/
def State.nextKind (s : State) : Option Nat :=
  match s.cfg.load with
  | some l => if l.phase == .writing && decide (32 ≤ l.rx.length) then some (fieldAt (l.rx.map (·.1)) 4 1) else none
  | none => none

/-! ### Release (05 R172; 06 R201, R202) -/

/-- The slabs of a region take their contents from init_mode (05 R172); loaded contents stand already. -/
def initSlabs (r : Region) (s : State) : State :=
  { s with coping := { s.coping with
      mem := s.coping.mem.filter fun e =>
        let i := e.1 / 16384
        let (n, slab) := (i / 32768, i % 32768)
        !(decide (slab < 25600) && r.covers n (slab % 160) (slab / 160) && (s.slabCfg n slab).init == 0) } }

/-- The identity of brick `n` at a release (07 R230). -/
def newIdentity (h : List Byte) (old : List Byte) : List Byte :=
  if isPartial h then (Crypto.sha256 (padTo 16 old ++ slice h 64 32)).take 16 else slice h 64 16

/-- The registers of the released bricks (06 T6.5, 07 R230, R235). -/
def releaseBrick (h : List Byte) (n : Nat) (s : State) : State :=
  let id := newIdentity h (SMap.look [] s.cfg.identity n)
  let s := { s with cfg := { s.cfg with identity := SMap.put [] s.cfg.identity n id } }
  if isPartial h then s
  else
    let col := SMap.upd {} s.cap.collectors n fun c => { c with taps := [] }
    { s with
      cap := { s.cap with collectors := col }
      cfg := { s.cfg with
        loaded := setBit s.cfg.loaded n true
        versions := SMap.put 0 s.cfg.versions n (BitVec.ofNat 32 (fieldAt h 12 4)) } }

/-- The release is complete: the region leaves reset, and with it an overlapping one that it replaces (R200); it is
logged, and what waited for it ends. -/
def releaseDone (l : Load) (s : State) : State :=
  let h := l.header
  let held := s.cfg.held.filter fun q => !(match l.region with | some r => r.overlaps q | none => false)
  let s := ((l.region.map (·.bricksOf)).getD []).foldl (fun s n => releaseBrick h n s) s
  let s := { s with cfg := { s.cfg with
    held, load := none, lastStatus := Status.ok, lastCause := 0, lastKind := isPartial h } }
  let s := keepEdges linesFollow s
  let s := logEvent 0x3013 [fieldAt h 5 1, fieldAt h 8 1, fieldAt h 12 4, l.step] s
  let s := match s.intake.busy with
    | some b => if b.packet.opcode == 0x0202 then
        finishHeld Status.ok (leBytes 4 s.cfg.frames.toNat ++ leBytes 4 s.cfgLast) s else s
    | none => s
  if l.source == .host then s else finishOp 0x0204 Status.ok (leBytes 4 s.cfgLast) s

/-- A new image's registered groups may be without a monitor (04 R122). -/
def seamsFollow (s : State) : State := s.fab.groups.foldl (fun s e => noteFrozen (groupOfKey e.1) s) s

/-- At write-enable release a flip-flop on a startup_hold line that is asynchronous takes its reset value (03 R85). -/
def holdResets (r : Region) (s : State) : State :=
  resetFfs r.covers (fun x ff1 =>
    let c := s.leCfg x
    let t := s.tileCfg x.tileAddr
    let sel := if ff1 then c.rst1 else c.rst0
    (sel == 1 && t.aAsync && t.aHold) || (sel == 2 && t.bAsync && t.bHold)) s

/-- One step of a staged release (R201): the first at T0, which takes the step `d` then in force (R202), the others one step
of `d` ticks later each. -/
def releaseStep (s : State) : State :=
  match s.cfg.load with
  | some l =>
    if l.phase == .releasing then
      let s := if l.released = 0 then s else s.elapse l.step
      let l := if l.released = 0 then { l with step := s.cfg.releaseStep.toNat } else l
      let s := { s with cfg.load := some { l with released := l.released + 1 } }
      if l.released = 0 then seamsFollow (keepEdges linesFollow s)
      else if l.released < 2 then
        match l.region with
        | some r => holdResets r s
        | none => s
      else releaseDone l s
    else s
  | none => s

end Sys2Proof.Machine
end

