-- ==== Sys2Proof/Machine/PowerRows.lean ====
section
/-!
DEFINITION. The events of power, clocks and reset (15): starts and stops of the part, limits, references,
adaptive loops, and the supplies of the pins (04 R137, 18 R596).
-/
namespace Sys2Proof.Machine
open Sys2Proof

/-! ### Starts (R502, R525, R526) -/

/-- The reset kind a power-on start reports: what the Dormant record says last cut the power (T15.10). -/
def Power.startCause (p : Power) : ResetCause :=
  if p.record.cause = 2 then .vinLost else if p.record.cause = 3 then .thermalTrip else .powerOn

/-- Codes of a wake's cause. -/
def wakeCode : WakeCause → Nat
  | .wakeN => 0 | .rtc => 1 | .tamper => 2

/-- A wake from Dormant (R512): the power-on sequence with the keep-alive domain kept. -/
def wakeUp (c : WakeCause) (s : State) : State :=
  let s := { s with power := { s.power with
    wakePending := none, record := { s.power.record with wake := wakeCode c, rtc := s.rtcNow.zeroExtend 64 } } }
  s.restart .wake .wake 0

/-- A wake source fires: in Dormant, where the entry enabled it; TAMPER_N always wakes. With VIN below 5.8 V
the wake stays pending (R512). -/
def wakeBy (c : WakeCause) (s : State) : State :=
  let on := match c with
    | .wakeN => s.power.wakeEn.getLsbD 0
    | .rtc => s.power.wakeEn.getLsbD 1
    | .tamper => true
  if s.power.phase ≠ .dormant || !on then s
  else if s.power.vin.toNat ≤ 580 then { s with power.wakePending := some c }
  else wakeUp c s

/-- VIN rises above 5.8 V: a pending wake goes on; a part in Dormant stays there; otherwise a power-on reset,
held in reset after a thermal trip until every sensor reads below 100 degrees (R528). -/
def powerOn (v33 : Bool) (s : State) : State :=
  if s.power.phase = .dormant then
    let s := { s with power.vin := 4800 }
    match s.power.wakePending with
    | some c => wakeUp c s
    | none => s
  else
    let trip := s.power.thermtrip
    let s := { s with svp.vio33 := v33, power.vin := 4800 }
    let s := s.restart .powerOn s.power.startCause 0
    { s with power := { s.power with phase := if trip then .inReset else .starting, thermtrip := trip } }

/-- POWER_ON_RESET. -/
def execPowerOnReset (vioSvc33 : Bool) (s : State) : Host.Outcome State Fault Refusal := .next (powerOn vioSvc33 s)

/-- GUEST_TRAINING_DEADLINE (01 R29). -/
def execGuestTrainingDeadline (s : State) : Host.Outcome State Fault Refusal :=
  .next (if s.dev.role && !s.part.guestTrains then
      logEvent 0x3003 [4, 0, (s.part.strapOf 24).toNat]
        (s.setDie 25 fun d => { d with state := .reset, held := true, trainFailed := true })
    else s)

/-- The pins select a boot source (06 R196). -/
def State.bootSource (s : State) : Bool := s.cfg.bootPins == 1 || s.cfg.bootPins == 2

/-- With a boot source selected, a boot load starts as the intake opens (06 R197), not under 01 R19. -/
def bootBegins (s : State) : State :=
  if s.bootSource && !s.dev.hubFault && !s.evr.returnState then { s with cfg.bootAsked := some false } else s

/-- The steward trains every channel that has a DIMM once the intake opens (13 R431, R433). -/
def dramStarts (s : State) : State :=
  if s.evr.returnState then s
  else (List.range 8).foldl (fun s c =>
    if (s.dimmsOf c).count = 0 then s else s.setChan c fun x => { x with state := .training }) s

/-- INTAKE_OPEN (02 R37): the steward is released and logs its start. -/
def execIntakeOpen (s : State) : Host.Outcome State Fault Refusal :=
  .next (if s.power.phase = .starting then
      bootBegins (dramStarts <| startEvents { s with power.phase := .running, intake.opened := true })
    else s)

/-- A full reset of a part that has power: a load is lost (06 R194), an open session ends, and the part starts again
(R525, T15.8). -/
def fullResetBy (c : ResetCause) (port : Nat) (s : State) : State :=
  (endSession 1 s).restart .full c port

/-- FULL_RESET by its cause: PWR_RESET's own where one is due, with the latch cleared where R468 asks for it;
any other kind of start is not a full reset. -/
def fullReset (c : ResetCause) (s : State) : State :=
  match c with
  | .pwrReset =>
    match s.power.resetDue with
    | none => s
    | some (p, clear) =>
      let quit := clear && s.sec.latch
      let s := fullResetBy .pwrReset p.val (if quit then logEvent 0x2042 [0] s else s)
      if quit then { s with sec := { s.sec with latch := false, firstCause := 0, latching := 0 } } else s
  | .resetN | .watchdog | .mismatch => if s.up then fullResetBy c 0 s else s
  | _ => s

/-- FULL_RESET. -/
def execFullReset (cause : ResetCause) (s : State) : Host.Outcome State Fault Refusal := .next (fullReset cause s)

/-- RESET_N is low: full reset, in which the part stays. After a thermal trip the part powers up again and is
held in reset (R528). -/
def resetNDown (s : State) : State :=
  if s.up then
    let s := fullResetBy .resetN 0 s
    { s with power := { s.power with phase := .inReset, resetNLow := true } }
  else match s.power.phase with
    | .tripped =>
      let s := s.restart .powerOn s.power.startCause 0
      { s with power := { s.power with phase := .inReset, resetNLow := true, thermtrip := true } }
    | .inReset => { s with power.resetNLow := true }
    | _ => s

/-- RESET_N_ASSERTED. -/
def execResetNAsserted (s : State) : Host.Outcome State Fault Refusal := .next (resetNDown s)

/-- RESET_N_RELEASED: the part starts, unless a trip still holds it. -/
def execResetNReleased (s : State) : Host.Outcome State Fault Refusal :=
  .next (if s.power.resetNLow then
      { s with power := { s.power with
        resetNLow := false, phase := if s.power.phase = .inReset && !s.power.thermtrip then .starting else s.power.phase } }
    else s)

/-- WATCHDOG_EXPIRY; its count pauses while freeze bit 5 is in force (16 R553). -/
def execWatchdogExpiry (busAddr : W64) (s : State) : Host.Outcome State Fault Refusal :=
  .next (if s.up && !s.frozen.getLsbD 5 then fullReset .watchdog (logEvent 0x1003 [busAddr.toNat] s) else s)

/-- STEWARD_MISMATCH (01 R36). -/
def execStewardMismatch (busAddr : W64) (s : State) : Host.Outcome State Fault Refusal :=
  .next (if s.up then fullReset .mismatch (logEvent 0x2005 [busAddr.toNat] s) else s)

/-- VIN_LOST. -/
def execVinLost (s : State) : Host.Outcome State Fault Refusal := .next (loseVin s)

/-! ### Thermal limits (R528) -/

/-- A sensor reading is recorded; a crossing above 105 degrees is logged once. -/
def noteTemp (die sensor : Nat) (t : BitVec 16) (s : State) : State :=
  let k := die * 16 + sensor
  let hot := decide (1680 < t.toInt)
  let was := SMap.look false s.power.high k
  let s := { s with power := { s.power with
    temps := SMap.put 0x190 s.power.temps k t, high := SMap.put false s.power.high k hot } }
  if hot && !was then logEvent 0x1031 [tempDie die, sensor, (t.signExtend 64).toNat] s else s

/-- THERMAL_TRIP: a reading of 110 degrees in a part that has power. -/
def execThermalTrip (die : Fin 25) (sensor : Fin 16) (reading : BitVec 16) (s : State) :
    Host.Outcome State Fault Refusal :=
  .next (if 1760 ≤ reading.toInt && (s.up || s.power.phase = .inReset) then
      tripOff die sensor reading (noteTemp die sensor reading s)
    else s)

/-- THERMAL_TRIP_RELEASE: every sensor reads below 100 degrees; the hold in reset ends, unless RESET_N is low. -/
def execThermalTripRelease (s : State) : Host.Outcome State Fault Refusal :=
  .next (if s.power.phase = .inReset && s.power.thermtrip then
      { s with power := { s.power with
        thermtrip := false, temps := s.power.temps.filter (fun e => e.2.toInt < 1600)
        high := s.power.high.filter (fun e => (SMap.look 0x190 s.power.temps e.1).toInt < 1600)
        phase := if s.power.resetNLow then .inReset else .starting } }
    else s)

/-! ### Tamper, wake and Dormant (R511, R512, 14 R470) -/

/-- What the keep-alive domain does with a tamper while the rails are off: the latch, and the wraps erased
(14 T14.3). Nothing can be logged. -/
def keepAliveTamper (s : State) : State :=
  if s.power.vbat = 0 then s
  else
    if s.sec.policy.getLsbD 2 && s.sec.stored ≠ .blank && !s.evr.returnState then
      { s with sec := { s.sec with latch := true, latching := setBit s.sec.latching 2 true
                                   firstCause := if s.sec.latch then s.sec.firstCause else 2 }
               power.wraps := [] }
    else s

/-- A tamper: the alarm, with a wake from Dormant. -/
def tamper (s : State) : State :=
  match s.power.phase with
  | .off | .tripped => keepAliveTamper s
  | .dormant =>
    if s.power.vin.toNat ≤ 580 then wakeBy .tamper (keepAliveTamper s) else raiseAlarm 2 (wakeBy .tamper s)
  | _ => raiseAlarm 2 s

/-- TAMPER_ASSERTED. -/
def execTamperAsserted (s : State) : Host.Outcome State Fault Refusal := .next (tamper s)

/-- WAKE. -/
def execWake (cause : WakeCause) (s : State) : Host.Outcome State Fault Refusal := .next (wakeBy cause s)

/-- RTC_MATCH: the counter stands at the match value. -/
def execRtcMatch (s : State) : Host.Outcome State Fault Refusal :=
  .next (wakeBy .rtc { s with power := { s.power with rtc := s.power.rtcMatch, rtcAt := s.time } })

/-- DORMANT_ENTRY. -/
def execDormantEntry (s : State) : Host.Outcome State Fault Refusal := .next (enterDormant s)

/-! ### The power limit (R504, R505) -/

/-- POWER_LIMIT_STEP: one action above the cap, one back below 95 % of it. -/
def execPowerLimitStep (watts : Nat) (below : Bool) (s : State) : Host.Outcome State Fault Refusal :=
  .next (let cap := s.power.effectiveCap
    let s := { s with power.watts := BitVec.ofNat 16 watts }
    if (if below then decide (100 * watts < 95 * cap) else decide (cap < watts)) then
      { s with power := s.power.limitStep below }
    else s)

/-- Hold is forced: both actions stand at their limits and the input power lies above the cap. In Hold the cap
is reported as not met. -/
def forceHold (watts : Nat) (s : State) : State :=
  let s := { s with power.watts := BitVec.ofNat 16 watts }
  if watts ≤ s.power.effectiveCap || s.power.engDiv ≠ 15 || s.power.genStep ≠ 16 then s
  else if s.power.mode = .hold then { s with power.capNotMet := true }
  else askHold 1 (logEvent 0x1021 [watts, s.power.effectiveCap] { s with power.capNotMet := true })

/-- HOLD_FORCED. -/
def execHoldForced (watts : Nat) (s : State) : Host.Outcome State Fault Refusal := .next (forceHold watts s)

/-! ### References (R513 to R520) -/

/-- The spread of some readings. -/
def spread (xs : List Int) : Int := xs.foldl max (xs.headD 0) - xs.foldl min (xs.headD 0)

/-- A reading of the XO (R515): eight in a row within 2.5 % that differ by less than 100 ppm qualify it, and
the hub switches to it where it is the primary. -/
def xoReading (ppm : Int) (s : State) : State :=
  if s.clk.fsel = 7 || s.clk.xoQualified || s.clk.xoFailed then s
  else if ppm < -25000 || 25000 < ppm then { s with clk.xoReadings := [] }
  else
    let run := (ppm :: s.clk.xoReadings).take 8
    let s := { s with clk.xoReadings := run }
    if run.length = 8 && spread run < 100 then
      let s := { s with clk.xoQualified := true }
      let s := logEvent 0x1010 [s.clk.fsel.toNat, s.time - s.clk.releasedAt] s
      if s.clk.primary = 0 && s.clk.current ≠ 0 then refSwitch 0 s else s
    else s

/-- XO_READING. -/
def execXoReading (ppm : Int) (s : State) : Host.Outcome State Fault Refusal := .next (xoReading ppm s)

/-- XO_FAILED: the part stays on IOSC. -/
def execXoFailed (s : State) : Host.Outcome State Fault Refusal :=
  .next (if s.clk.fsel = 7 || s.clk.xoQualified || s.clk.xoFailed then s
    else logEvent 0x1011 [((BitVec.ofInt 64 (s.clk.xoReadings.headD 0)) : W64).toNat] { s with clk.xoFailed := true })

/-- A monitor takes a reading in 1/8 ppm: the stages it declares now and those it clears (T15.5). -/
def Mon.take (m : Mon) (r : BitVec 24) : Mon × List Nat × List Nat :=
  let a := r.toInt.natAbs
  let m := { m with
    reading := r, over1 := if 1200 < a then m.over1 + 1 else 0, over2 := if 2400 < a then m.over2 + 1 else 0
    good1 := if a ≤ 800 then m.good1 + 1 else 0, good2 := if a ≤ 2000 then m.good2 + 1 else 0 }
  if 8000 < a then ({ m with stage := 3 }, if m.stage = 3 then [] else [3], [])
  else if 2 ≤ m.over2 && m.stage.toNat < 2 then
    ({ m with stage := 2 }, if m.stage = 0 && 3 ≤ m.over1 then [1, 2] else [2], [])
  else if 3 ≤ m.over1 && m.stage = 0 then ({ m with stage := 1 }, [1], [])
  else
    let c2 := 2 ≤ m.stage.toNat && 10 ≤ m.good2
    let m2 := if c2 then { m with stage := 1 } else m
    let c1 := m2.stage = 1 && 10 ≤ m2.good1
    let m1 := if c1 then { m2 with stage := 0 } else m2
    (m1, [], (if c2 then [m.stage.toNat] else []) ++ if c1 then [1] else [])

/-- Lanes at risk (09 R305): those at PAM4 rates in uses other than bond. -/
def lanesAtRisk (on : Bool) (s : State) : State :=
  { s with lanes.lanes := SMap.mapAll {} s.lanes.lanes fun _ x =>
      if x.use ≠ 0 && x.use ≠ useBond && (x.rate = 13 || x.rate = 14) then { x with atRisk := on }
      else if on then x else { x with atRisk := false } }

/-- The main reference has failed (T15.5 stage 3): to the alternate at stage 0 or 1, otherwise to IOSC and into
Hold. `what`: the reading or the mark of missing edges. -/
def refFailed (what : Nat) (s : State) : State :=
  let old := s.clk.current
  let s := logEvent 0x1014 [old.toNat, what] s
  if s.clk.alternate ≠ 15 && s.clk.monAlt.stage.toNat < 2 then
    let new := s.clk.alternate
    let s := refSwitch new.toNat s
    logEvent 0x1015 [old.toNat, new.toNat]
      { s with clk := { s.clk with primary := new, alternate := 15, standbyLocked := false, monAlt := {} } }
  else
    let s := if old = 3 then s else logEvent 0x1015 [old.toNat, 3] (refSwitch 3 s)
    askHold 2 s

/-- A reading of the main reference's monitor. -/
def mainReading (r : BitVec 24) (s : State) : State :=
  let src := s.clk.current.toNat
  let (m, up, down) := s.clk.mon.take r
  let s := { s with clk.mon := m }
  let val := (r.signExtend 64).toNat
  let s := up.foldl (fun s k =>
    if k = 1 then logEvent 0x1012 [src, val] s
    else if k = 2 then lanesAtRisk true (logEvent 0x1013 [src, val] s)
    else refFailed val s) s
  down.foldl (fun s k => logEvent 0x1016 [src, k] (if k ≠ 1 then lanesAtRisk false s else s)) s

/-- A reading of the alternate's monitor: reported and logged; it switches nothing. -/
def altReading (r : BitVec 24) (s : State) : State :=
  if s.clk.alternate = 15 then s
  else
    let src := s.clk.alternate.toNat
    let (m, up, down) := s.clk.monAlt.take r
    let s := { s with clk.monAlt := m }
    let val := (r.signExtend 64).toNat
    let s := up.foldl (fun s k => logEvent (0x1011 + k) [src, val] s) s
    down.foldl (fun s k => logEvent 0x1016 [src, k] s) s

/-- REF_MONITOR_READING. -/
def execRefMonitorReading (alternate : Bool) (reading : BitVec 24) (s : State) : Host.Outcome State Fault Refusal :=
  .next (if alternate then altReading reading s else mainReading reading s)

/-- REF_MISSING_EDGES: failure at once; how the payload marks missing edges is not published (assumption
log 35). -/
def execRefMissingEdges (s : State) : Host.Outcome State Fault Refusal :=
  .next (let m := s.freeVal.toNat
    let s := s.stepFree
    if s.clk.mon.stage = 3 then s else refFailed m { s with clk.mon := { s.clk.mon with stage := 3 } })

/-! ### Adaptive loops (R529, R530) -/

/-- One step of a seam group's sampling code (04 R121 to R123): only while registered and clocked, with a
monitor, inside the window and at most one code. Without a monitor the group is frozen, logged once. -/
def seamStep (g : SeamGroup) (up : Bool) (s : State) : State :=
  if !s.groupRegistered g || !s.clkActive.getLsbD (s.groupField g 1 6) then s
  else match s.monitorOf g with
    | none => noteFrozen g s
    | some _ =>
      let l := s.loop 3
      let c : Int := (s.eyeCentre g).toNat
      let lo := min l.effLo.toInt (c - 2)
      let hi := max l.effHi.toInt (c + 2)
      let next : Int := (s.sampleCode g).toNat + (if up then 1 else -1)
      if lo ≤ next && next ≤ hi && 0 ≤ next && next ≤ 31 then s.setGroup g fun x => { x with move := next - c } else s

/-- One re-centring of a rank (13 R432): the step counts, and the position stays inside the window. -/
def dramStep (c : Nat) (up : Bool) (s : State) : State :=
  if (s.chan c).state ≠ .trained then s
  else
    let l := s.loop 2
    let next := (s.chan c).offset + (if up then 1 else -1)
    let fits := l.effLo.toInt ≤ next && next ≤ l.effHi.toInt
    s.setChan c fun x =>
      if fits then { x with offset := next, recentre := satAdd x.recentre 1
                            recentreHeld := next == l.effLo.toInt || next == l.effHi.toInt }
      else { x with recentreHeld := true }

/-- One step of a lane's equalisers, where it has lock (09 R311, R312): the CTLE by one code in each 10 µs, towards its
window where it stands outside; the taps of FFE and DFE as they adapt, free values (assumption log 83), unless the window
freezes them and the floor does not make them run. -/
def ctleStep (l : Nat) (up : Bool) (s : State) : State :=
  let x := s.lane l
  let (lo, hi) := eqWindow x.rate.toNat x.ctleLo.toNat x.ctleHi.toNat
  let (_, ffeRuns, dfeRuns) := eqFloor x.rate.toNat
  let c := x.ctle.toNat
  let next := if c < lo then c + 1 else if hi < c then c - 1 else if up then min hi (c + 1) else max lo (c - 1)
  if !x.locked then s
  else
    let k := s.freeNo
    let taps (i n : Nat) : List Byte := (List.range n).map fun j => Config.freeByte (k + i) j
    let s := s.setLane l fun x =>
      let x := if x.ctleAt = 0 || x.ctleAt + 1000 ≤ s.time + 1 then { x with ctle := BitVec.ofNat 5 next, ctleAt := s.time + 1 } else x
      let x := if x.ffe || ffeRuns then { x with ffeTaps := taps 0 8 } else x
      if x.dfe || dfeRuns then { x with dfeH1 := Config.freeByte (k + 1) 0, dfeTaps := taps 2 11 } else x
    { s with freeNo := k + 3 }

/-- One step of an island's supply, 5 mV, inside the effective window of loop 0 (R503, R529); a value that the window has left
behind moves towards it. -/
def supplyStep (u : Nat) (up : Bool) (s : State) : State :=
  let l := s.loop 0
  let v := s.power.supplyOf u
  let next := if v < l.effLo.toNat then v + 1 else if l.effHi.toNat < v then v - 1
    else if up then min l.effHi.toNat (v + 1) else max l.effLo.toNat (v - 1)
  { s with power.supply := SMap.put 150 s.power.supply u next }

/-- One step of the droop threshold, 1 mV, inside the effective window of loop 1 (R529). -/
def droopStep (up : Bool) (s : State) : State :=
  let l := s.loop 1
  let v := s.power.droop
  let next := if v < l.effLo.toNat then v + 1 else if l.effHi.toNat < v then v - 1
    else if up then min l.effHi.toNat (v + 1) else max l.effLo.toNat (v - 1)
  { s with power.droop := next }

/-- ADAPTIVE_LOOP_STEP (R529). -/
def execAdaptiveLoopStep (unit : LoopUnit) (up : Bool) (s : State) : Host.Outcome State Fault Refusal :=
  .next (match unit with
    | .island u => supplyStep u up s
    | .droop => droopStep up s
    | .dram c _ => dramStep c up s
    | .seam g => seamStep g up s
    | .lane l => ctleStep l up s)

/-- SEAM_SAMPLING_STEP. -/
def execSeamSamplingStep (g : SeamGroup) (up : Bool) (s : State) : Host.Outcome State Fault Refusal :=
  .next (seamStep g up s)

/-- DROOP_STRETCH: the island's clock is stretched at its root; a grout island never is. -/
def execDroopStretch (island : DroopIsland) (s : State) : Host.Outcome State Fault Refusal :=
  .next (match island with
    | .grout => s
    | _ => { s with power.stretches := s.power.stretches + 1 })

/-! ### Pin supplies (04 R137, 18 R596) -/

/-- VIO_LOST. -/
def execVioLost (bank : Fin 32) (s : State) : Host.Outcome State Fault Refusal :=
  .next (if s.fab.vioPresent.getLsbD bank then
      logEvent 0x4110 [bank.val]
        { s with fab := { s.fab with vioPresent := setBit s.fab.vioPresent bank false
                                     vioLost := setBit s.fab.vioLost bank true } }
    else s)

/-- VIO_RESTORED. -/
def execVioRestored (bank : Fin 32) (s : State) : Host.Outcome State Fault Refusal :=
  .next (if s.fab.vioPresent.getLsbD bank then s
    else logEvent 0x4111 [bank.val] { s with fab.vioPresent := setBit s.fab.vioPresent bank true })

/-- VIO_SVC_LOST: the service pins are hi-Z and every input reads its inactive level, so a packet of port 4
under way is discarded. -/
def execVioSvcLost (s : State) : Host.Outcome State Fault Refusal :=
  .next (if s.svp.vioPresent then logEvent 0x1060 [s.time] (dropPartial 4 { s with svp.vioPresent := false }) else s)

/-- VIO_SVC_RESTORED: at 1.8 V or 3.3 V. -/
def execVioSvcRestored (v33 : Bool) (s : State) : Host.Outcome State Fault Refusal :=
  .next (if s.svp.vioPresent then s
    else logEvent 0x1061 [b2n v33] { s with svp := { s.svp with vioPresent := true, vio33 := v33 } })

/-- CROSSBAR_PIN_WRITE (18 R586). -/
def execCrossbarPinWrite (pin : Fin 96) (value : W32) (s : State) : Host.Outcome State Fault Refusal :=
  .next (writePin pin value s)

/-- CLK_GATE_WRITE (R522). -/
def execClkGateWrite (value : W32) (s : State) : Host.Outcome State Fault Refusal := .next (writeGate value s)

end Sys2Proof.Machine
end

