-- ==== Sys2Proof/Machine/CfgCmds.lean ====
section
/-!
DEFINITION. The CFG commands (06 R203 to R209) and the rows of the image loader, one definition per row.
-/
namespace Sys2Proof.Machine
open Sys2Proof

/-! ### Sessions (06 R198, R205 to R207) -/

/-- The sender owns the load session. -/
def State.ownsLoad (s : State) (c : Cmd) : Bool :=
  match s.cfg.session with
  | some n => n.port == c.port && n.source == c.source
  | none => false

/-- A stream or fetch of the session runs. -/
def State.delivering (s : State) : Bool :=
  match s.cfg.session with
  | some n => n.stream.isSome || n.fetching
  | none => false

/-- The load takes image bytes. -/
def State.takesBytes (s : State) : Bool :=
  match s.cfg.load with
  | some l => l.source == .host && l.unfinished
  | none => false

/-- CFG_BEGIN (R205). A load that still releases also completes it with BAD_STATE (assumption log 63). -/
def cardCfgBegin : Card where
  opcode := 0x0200
  critical := true
  cls := .operation
  lengthOk c := c.paramLength == 0
  state c s := needs (!s.dev.hubFault && c.lockBegin && s.cfg.session.isNone && s.cfg.load.isNone && !s.bootRuns &&
    !s.cap.draining && !s.fab.repairing)
  run c _ s :=
    let n : CfgSession := { port := c.port, source := c.source, stream := none, fetching := false }
    answerOk [] (newLoad .host { s with cfg.session := some n })

def execCfgBegin (c : Cmd) (s : State) : Host.Outcome State Fault Refusal := .next (spatu cardCfgBegin c s)

/-- The state of the session changes. -/
def updSession (f : CfgSession → CfgSession) (s : State) : State :=
  match s.cfg.session with
  | some n => { s with cfg.session := some (f n) }
  | none => s

/-- CFG_DATA (R206, T6.9). -/
def cardCfgData : Card where
  opcode := 0x0201
  critical := false
  cls := .operation
  background c := fieldAt c.params 0 1 == 1 || fieldAt c.params 0 1 == 2
  lengthOk c := c.paramLength.toNat == 24 + (if fieldAt c.params 0 1 = 0 then fieldAt c.params 8 8 else 0)
  state c s := needs (!s.dev.hubFault && s.ownsLoad c && s.takesBytes && !s.delivering)
  param c _ :=
    let (mode, len, addr) := (fieldAt c.params 0 1, fieldAt c.params 8 8, fieldAt c.params 16 8)
    inRange (zeroAt c.params 1 7 && decide (mode ≤ 2) && (mode != 1 || c.port.val < 2) && len % 4 == 0 &&
      (mode == 2 || addr == 0) && (mode != 0 || decide (len ≤ 65512)) && (mode != 2 || decide (addr + len ≤ 2 ^ 48)))
  run c _ s :=
    let (mode, len, addr) := (fieldAt c.params 0 1, fieldAt c.params 8 8, fieldAt c.params 16 8)
    if mode = 0 then
      let (st, s) := deliverImage ((slice c.params 24 len).map fun v => (v, false)) s
      (.reply st s.cfgBytes, s)
    else if mode = 1 then
      if len = 0 then (.accepted, finishEntry c.port c.source c.tag Status.ok s.cfgBytes s)
      else (.accepted, updSession (fun n => { n with stream := some len }) s)
    else
      let s := updSession (fun n => { n with fetching := true }) s
      (.accepted, updEntry c.port c.source c.tag
        (fun e => { e with work := .cfgFetch (BitVec.ofNat 64 addr) len }) s)

def execCfgData (c : Cmd) (s : State) : Host.Outcome State Fault Refusal := .next (spatu cardCfgData c s)

/-- The fetch of a CFG_DATA: the configuration controller reads as the steward master, subject to the access tables
(R198), and its completion carries the outcome. -/
def runFetch (e : Completion) (addr len : Nat) (s : State) : State :=
  let s := updSession (fun n => { n with fetching := false }) s
  let (st, bs, s) := busRead configEp 0 2 addr len s
  let (status, s) := if st = 0 then deliverImage bs s else (readError st, s)
  finishEntry e.port e.source e.tag status s.cfgBytes s

/-- STREAM_APERTURE_WRITE: bytes written through BAR 2 of a controller (R198). They belong to the stream of the
session on that controller's port; without one, or past its count, the write is dropped and counted. -/
def execStreamApertureWrite (ctl : Fin 2) (bytes : List Byte) (s : State) : Host.Outcome State Fault Refusal :=
  .next <|
    let drop (s : State) : State := { s with cfg.dropped := satAdd s.cfg.dropped 1 }
    match s.cfg.session with
    | none => drop s
    | some n =>
      match n.stream with
      | none => drop s
      | some left =>
        if n.port.val != ctl.val then drop s
        else
          let rest := if left ≤ bytes.length then none else some (left - bytes.length)
          let s := if left < bytes.length then drop s else s
          let s := updSession (fun n => { n with stream := rest }) s
          let (st, s) := deliverImage ((bytes.take left).map fun v => (v, false)) s
          match s.running 0x0201 with
          | none => s
          | some e =>
            if rest.isNone || st != Status.ok then
              finishEntry e.port e.source e.tag st s.cfgBytes
                (updSession (fun n => { n with stream := none }) s)
            else s

/-- The data of CFG_END and CFG_ABORT: CFG_FRAMES, then CFG_LAST. -/
def State.framesLast (s : State) : List Byte := leBytes 4 s.cfg.frames.toNat ++ leBytes 4 s.cfgLast

/-- What check step 7 asks of CFG_END and CFG_ABORT (R207). -/
def closeState (c : Cmd) (s : State) : Option (BitVec 16) :=
  needs (!s.dev.hubFault && c.lockEnd && s.ownsLoad c && !s.delivering)

/-- CFG_END (R207): it waits for a release under way. -/
def cardCfgEnd : Card where
  opcode := 0x0202
  critical := false
  cls := .operation
  lengthOk c := c.paramLength == 0
  state := closeState
  run _ _ s :=
    match s.cfg.load with
    | none =>
      let s := closeSession s
      answerOk s.framesLast s
    | some l =>
      if l.unfinished then
        let s := closeSession (loadTruncated 6 s)
        (.reply Status.imageTruncated s.framesLast, s)
      else if l.phase == .failed then
        let s := closeSession s
        (.reply s.cfg.lastStatus s.framesLast, s)
      else (.held false, closeSession s)

def execCfgEnd (c : Cmd) (s : State) : Host.Outcome State Fault Refusal := .next (spatu cardCfgEnd c s)

/-- CFG_ABORT (R207). -/
def cardCfgAbort : Card where
  opcode := 0x0203
  critical := false
  cls := .operation
  lengthOk c := c.paramLength == 0
  state := closeState
  run _ _ s :=
    let s := closeSession (loadTruncated 7 s)
    answerOk s.framesLast s

def execCfgAbort (c : Cmd) (s : State) : Host.Outcome State Fault Refusal := .next (spatu cardCfgAbort c s)

/-- CFG_BOOT (R208). -/
def cardCfgBoot : Card where
  opcode := 0x0204
  critical := true
  cls := .operation
  background _ := true
  lengthOk c := c.paramLength == 4
  state _ s := needs (!s.dev.hubFault && s.cfg.session.isNone && s.cfg.load.isNone && !s.bootRuns)
  param c s := inRange (decide (fieldAt c.params 0 1 ≤ 1) && zeroAt c.params 1 3 && s.bootSource)
  run c _ s := (.accepted, { s with cfg.bootAsked := some (fieldAt c.params 0 1 == 1) })

def execCfgBoot (c : Cmd) (s : State) : Host.Outcome State Fault Refusal := .next (spatu cardCfgBoot c s)

/-- CFG_RELEASE_SET (R202, R209). -/
def cardCfgReleaseSet : Card where
  opcode := 0x0205
  critical := true
  cls := .operation
  lengthOk c := c.paramLength == 4
  state _ s := needs (!s.dev.hubFault)
  param c _ := inRange (decide (16 ≤ fieldAt c.params 0 2) && decide (fieldAt c.params 0 2 ≤ 1024) && zeroAt c.params 2 2)
  run c _ s :=
    let s := { s with cfg.releaseStep := BitVec.ofNat 11 (fieldAt c.params 0 2) }
    answerOk (leBytes 4 s.cfg.releaseStep.toNat) s

def execCfgReleaseSet (c : Cmd) (s : State) : Host.Outcome State Fault Refusal := .next (spatu cardCfgReleaseSet c s)

/-- CFG_STATUS (R209): 68 bytes. -/
def cardCfgStatus : Card where
  opcode := 0x0206
  critical := false
  cls := .identity
  lengthOk c := c.paramLength == 0
  state _ s := needs (!s.dev.hubFault)
  run _ _ s :=
    let words := [0x00, 0x04, 0x08, 0x10, 0x14, 0x18, 0x1C] ++ (List.range 8).map (0x20 + 4 * ·) ++ [0x40, 0x44]
    answerOk (words.flatMap fun o => leBytes 4 (s.readCfg o)) s

def execCfgStatus (c : Cmd) (s : State) : Host.Outcome State Fault Refusal := .next (spatu cardCfgStatus c s)

/-! ### Rows of the loader -/

/-- BOOT_LOAD_START (R197): the load that the steward, CFG_BOOT or a failed first image asked for begins. -/
def execBootLoadStart (s : State) : Host.Outcome State Fault Refusal :=
  .next (match s.cfg.bootAsked, s.cfg.load with
    | some fb, none => newLoad (.boot fb) s
    | _, _ => s)

/-- IMAGE_HEADER_RECEIVED (R189): all 128 bytes of the header have arrived. A boot load reads them here; a host's
load takes its units within the CFG_DATA that delivers them, whose status the outcome is (R206). -/
def execImageHeaderReceived (s : State) : Host.Outcome State Fault Refusal :=
  .next (match s.cfg.load with
    | some l => if l.phase == .awaitHeader then takeUnit (bootUnit s) else s
    | none => s)

/-- The next chunk of a boot load is read and taken where its kind is asked for. -/
def bootChunk (trailer : Bool) (s : State) : State :=
  match s.cfg.load with
  | some l =>
    if l.phase == .writing then
      let t := if l.rx.length < 32 then bootFetch (32 - l.rx.length) s else s
      match t.nextKind with
      | none => t
      | some k => if (k == 2) = trailer then takeUnit (bootUnit t) else s
    else s
  | none => s

/-- IMAGE_CHUNK_RECEIVED (R192): a chunk other than the trailer has arrived whole. -/
def execImageChunkReceived (s : State) : Host.Outcome State Fault Refusal := .next (bootChunk false s)

/-- IMAGE_TRAILER_RECEIVED (R193): the trailer has arrived whole. -/
def execImageTrailerReceived (s : State) : Host.Outcome State Fault Refusal := .next (bootChunk true s)

/-- IMAGE_IDLE_TIMEOUT (R194): 100 ms have passed without an image byte. -/
def execImageIdleTimeout (s : State) : Host.Outcome State Fault Refusal := .next (loadTruncated 5 s)

/-- SLAB_INIT_DONE (05 R172, R193): the slabs have their contents and the staged release is next. -/
def execSlabInitDone (s : State) : Host.Outcome State Fault Refusal :=
  .next (match s.cfg.load with
    | some l =>
      if l.phase == .verifying then
        let s := match l.region with | some r => initSlabs r s | none => s
        { s with cfg.load := some { l with phase := .releasing, released := 0 } }
      else s
    | none => s)

/-- STAGED_RELEASE_STEP (R201). -/
def execStagedReleaseStep (s : State) : Host.Outcome State Fault Refusal := .next (releaseStep s)

end Sys2Proof.Machine
end

