-- ==== Sys2Proof/Machine/DbgRows.lean ====
section
/-!
DEFINITION. The debug port (16 R536 to R547): the debug-domain reset, the JTAG instructions and registers, and the
two-wire frames. What the spec leaves open of them is in assumption log 59.
-/
namespace Sys2Proof.Machine
open Sys2Proof

/-! ### The debug domain (R536 to R538) -/

/-- The debug domain is powered: whenever the hub is (R537). -/
def State.dbgPowered (s : State) : Bool := s.up || s.power.phase == .inReset

/-- The command port of the protocol in use. -/
def Dbg.port (d : Dbg) : Fin 8 := if d.twoWire then 3 else 2

/-- A debug-domain reset: the domain alone; DBG_SEL is resampled, and the session, halts and freeze settings stay. -/
def debugReset (cause : Nat) (s : State) : State :=
  if !s.dbgPowered then s
  else
    let d := s.dbg
    let s := dropPartial d.port.val s
    logEvent 0xA001 [cause]
      { s with dbg := { Dbg.reset with
        twoWire := s.part.dbgSel, resetSeen := true, accTag := d.accTag, accesses := d.accesses
        freeze := d.freeze, xhalt := d.xhalt, lanesFrozen := d.lanesFrozen } }

/-- DEBUG_PORT_RESET (R538): cause 0 TRST_N, 1 DBG_RESET, 2 two-wire sequence. -/
def execDebugPortReset (cause : BitVec 2) (s : State) : Host.Outcome State Fault Refusal :=
  .next (if cause = 3 then s else debugReset cause.toNat s)

/-- TRST_ASSERTED (R538). -/
def execTrstAsserted (s : State) : Host.Outcome State Fault Refusal := .next (debugReset 0 s)

/-- TWO_WIRE_RESET (R547): TWIO low for 128 cycles, then 0x3C. -/
def execTwoWireReset (s : State) : Host.Outcome State Fault Refusal :=
  .next (if s.dbg.twoWire then debugReset 2 s else s)

/-! ### Instructions (R539 to R543) -/

/-- The TAP answers: JTAG is the protocol, and the domain has power. -/
def State.tapOn (s : State) : Bool := s.dbgPowered && !s.dbg.twoWire

/-- An instruction is loaded; `test` where it is a test instruction in effect. -/
def loadInstr (code : Byte) (test : Bool) (s : State) : State :=
  { s with dbg := { s.dbg with instr := code, testActive := test } }

/-- An identification or command instruction; in the return state only three are offered (17 R574). -/
def selectInstr (code : Byte) (s : State) : State :=
  if !s.tapOn then s
  else if s.evr.returnState && code != 0x02 && code != 0x10 then loadInstr 0xFF false s
  else loadInstr code false s

/-- The session, if any, belongs to a port's source 0. -/
def State.sessionOf (s : State) (port : Fin 8) : Option Bool := s.sec.session.map fun n => n.port == port && n.source == 0

/-- Why a test instruction may not take effect (R542), with the cause of Table 16.9. -/
def State.testRefusal (s : State) : Option Nat :=
  if s.secAxis = .quarantine then some 2
  else if s.power.mode ≠ .hold && s.cfg.loaded ≠ 0 then some 0
  else if s.sessionOf 2 = some false || (s.secAxis = .sealed && s.sessionOf 2 ≠ some true) then some 1
  else none

/-- A test instruction: it takes effect, or loads as BYPASS and is logged. -/
def testInstr (code : Byte) (s : State) : State :=
  if !s.tapOn then s
  else if s.evr.returnState then loadInstr 0xFF false s
  else match s.testRefusal with
    | none => loadInstr code true s
    | some cause =>
      logEvent 0xA002 [code.toNat, cause] (loadInstr 0xFF false { s with dbg := { s.dbg with refused := true } })

/-- EXTEST. -/
def execExtest (s : State) : Host.Outcome State Fault Refusal := .next (testInstr 0x00 s)

/-- CLAMP. -/
def execClamp (s : State) : Host.Outcome State Fault Refusal := .next (testInstr 0x03 s)

/-- HIGHZ. -/
def execHighz (s : State) : Host.Outcome State Fault Refusal := .next (testInstr 0x04 s)

/-- EXTEST_PULSE. -/
def execExtestPulse (s : State) : Host.Outcome State Fault Refusal := .next (testInstr 0x05 s)

/-- EXTEST_TRAIN. -/
def execExtestTrain (s : State) : Host.Outcome State Fault Refusal := .next (testInstr 0x06 s)

/-- The cells of the boundary register (R541). -/
def boundaryCells : Nat := 5408

/-- SAMPLE/PRELOAD: the instruction, and the cells that its scan has sampled or preloaded. -/
def samplePreload (cells : List (Nat × Bool)) (s : State) : State :=
  let s' := selectInstr 0x01 s
  if s'.dbg.instr != 0x01 || !s.tapOn then s'
  else
    let b := (cells.filter fun e => e.1 < boundaryCells).foldl (fun m e => SMap.put false m e.1 e.2) s'.dbg.boundary
    { s' with dbg.boundary := b }

/-- SAMPLE/PRELOAD. -/
def execSamplePreload (cells : List (Nat × Bool)) (s : State) : Host.Outcome State Fault Refusal :=
  .next (samplePreload cells s)

/-- The identification register (R540). -/
def Part.idWord (p : Part) : Nat := 1 + 0x64B * 2 + p.family / 2 ^ 16 * 2 ^ 12 + p.stepping.toNat % 16 * 2 ^ 28

/-- IDCODE: the identification register is selected and captured. -/
def execIdcode (s : State) : Host.Outcome State Fault Refusal :=
  .next (if s.tapOn then
      let s := selectInstr 0x02 s
      { s with dbg.captured := BitVec.ofNat 96 s.part.idWord }
    else s)

/-- DBG_STATUS. -/
def execDbgStatus (s : State) : Host.Outcome State Fault Refusal := .next (selectInstr 0x10 s)

/-- CMD_DATA. -/
def execCmdData (s : State) : Host.Outcome State Fault Refusal := .next (selectInstr 0x11 s)

/-- BYPASS. -/
def execBypass (s : State) : Host.Outcome State Fault Refusal := .next (selectInstr 0xFF s)

/-- A port may use the grout access path (R543): its own session is open, or, in Blank and Open, none is. -/
def State.mayAccess (s : State) (port : Fin 8) : Bool :=
  s.secAxis != .quarantine && !s.evr.returnState &&
  match s.sessionOf port with
  | some own => own
  | none => s.secAxis != .sealed

/-- GROUT_ACC: selected, or refused as BYPASS. -/
def execGroutAcc (s : State) : Host.Outcome State Fault Refusal :=
  .next (if !s.tapOn then s
    else if s.evr.returnState then loadInstr 0xFF false s
    else if s.mayAccess 2 then loadInstr 0x12 false s
    else loadInstr 0xFF false { s with dbg := { s.dbg with refused := true } })

/-- DBG_RESET: the debug-domain reset at Run-Test/Idle; the return state does not offer it. -/
def execDbgReset (s : State) : Host.Outcome State Fault Refusal :=
  .next (if !s.tapOn then s
    else if s.evr.returnState then loadInstr 0xFF false s
    else debugReset 1 s)

/-! ### The status word (R544) -/

/-- The status word. -/
def State.statusWord (s : State) : Nat :=
  let p := s.dbg.port
  let sp := s.space p 0
  let note := match sp.current with | some r => r.notification | none => false
  b2n s.evr.returnState * 2 ^ 19 + b2n s.dbg.resetSeen * 2 ^ 20 + b2n s.dbg.overrun * 2 ^ 21 +
  b2n s.dbg.refused * 2 ^ 22 + b2n (s.sessionOf p == some true) * 2 ^ 23 + bitsAt s.secMode 24 2 * 2 ^ 24 +
  bitsAt s.secMode 28 2 * 2 ^ 26 + b2n sp.reqBusy * 2 ^ 28 + b2n note * 2 ^ 29 + b2n sp.current.isSome * 2 ^ 30 +
  b2n (s.intake.opened && !sp.reqBusy) * 2 ^ 31

/-- A read of the status word clears refused, overrun and reset_seen. -/
def readStatusWord (s : State) : Nat × State :=
  (s.statusWord, { s with dbg := { s.dbg with refused := false, overrun := false, resetSeen := false } })

/-- STATUS_WORD_CAPTURE. -/
def execStatusWordCapture (s : State) : Host.Outcome State Fault Refusal :=
  .next (if s.tapOn && s.dbg.instr == 0x10 then
      let (w, s) := readStatusWord s
      { s with dbg.captured := BitVec.ofNat 96 w }
    else s)

/-! ### The command data register (R545) -/

/-- The next word of the reply that waits; reading the last one frees the reply. -/
def replyWord (port : Fin 8) (s : State) : Option W32 × State :=
  match (s.space port 0).current with
  | none => (none, s)
  | some r =>
    let at_ := s.dbg.shifted
    let w : W32 := BitVec.ofNat 32 (fieldAt r.bytes at_ 4)
    if at_ + 4 < r.bytes.length then (some w, { s with dbg.shifted := at_ + 4 })
    else (some w, takeReply port 0 { s with dbg.shifted := 0 })

/-- Bytes go to the request packet of the protocol's port. -/
def commandWord (port : Fin 8) (w : W32) (s : State) : State := serialBytes port (leBytes 4 w.toNat) s

/-- A scan of the command data register: its update, or its capture. -/
def cmdDataWord (update : Bool) (word : BitVec 33) (s : State) : State :=
  if !s.tapOn || s.dbg.instr != 0x11 then s
  else if update then
    if word.getLsbD 32 then commandWord 2 (word.truncate 32) s else s
  else
    match replyWord 2 s with
    | (none, s) => { s with dbg.captured := 0 }
    | (some w, s) => { s with dbg.captured := BitVec.ofNat 96 (w.toNat + 2 ^ 32) }

/-- CMD_DATA_WORD. -/
def execCmdDataWord (update : Bool) (word : BitVec 33) (s : State) : Host.Outcome State Fault Refusal :=
  .next (cmdDataWord update word s)

/-! ### The grout access register (R543, R546) -/

/-- What Capture-DR loads from the register (Table 16.3). -/
def Dbg.accWord (d : Dbg) : Nat :=
  d.accAddr.toNat + d.accData.toNat * 2 ^ 48 + d.accStatus.toNat * 2 ^ 80 + b2n d.accPoisoned * 2 ^ 94 +
  b2n d.accBusy * 2 ^ 95

/-- A port's first access in Blank and Open opens an implicit session (14 R476). -/
def openForPort (port : Fin 8) (s : State) : State :=
  if s.sec.session.isSome then s
  else
    logEvent 0x2060 [port.val, 0, 1, 0]
      { s with sec.session := some { isImplicit := true, port, source := 0, keyId := 0, captureKey := none } }

/-- The access: one aligned 32-bit READ or WRITE as master 0x0002. -/
def sendAccess (write : Bool) (s : State) : State :=
  let d := s.dbg
  let a := d.accAddr &&& ~~~3
  let tag := d.accTag + 1
  let s := { s with dbg := { d with accBusy := true, accTag := tag, accesses := satAdd d.accesses 1 } }
  groutRequest
    { src := stewardEp, master := 2, op := if write then .write else .read, addr := a, len := 3, tag
      byteEn := (0xF : BitVec 256) <<< (a.toNat % 256), data := if write then leBytes 4 d.accData.toNat else []
      poison := 0, mgmt := false } s

/-- A start of the access the register holds: dropped while one is busy, refused where the session is not the port's. -/
def startAccess (port : Fin 8) (op : BitVec 2) (s : State) : State :=
  if op = 0 || op = 3 || !s.up then s
  else if s.dbg.accBusy then { s with dbg := { s.dbg with overrun := true } }
  else if !s.mayAccess port then { s with dbg := { s.dbg with refused := true } }
  else sendAccess (op == 2) { openForPort port s with dbg := { s.dbg with accOp := op } }

/-- A scan of the register: what it held is captured, and the update starts the access. -/
def groutAccStart (word : BitVec 96) (s : State) : State :=
  if !s.tapOn || s.dbg.instr != 0x12 then s
  else
    let op : BitVec 2 := word.extractLsb' 94 2
    let s := { s with dbg.captured := BitVec.ofNat 96 s.dbg.accWord }
    let s := if s.dbg.accBusy || op = 0 || op = 3 then s
      else
        let data : W32 := if op = 2 then word.extractLsb' 48 32 else s.dbg.accData
        { s with dbg := { s.dbg with accAddr := word.truncate 48, accData := data } }
    startAccess 2 op s

/-- GROUT_ACC_START. -/
def execGroutAccStart (word : BitVec 96) (s : State) : Host.Outcome State Fault Refusal := .next (groutAccStart word s)

/-! ### The two-wire port (R547) -/

/-- The answers of step 3. -/
inductive TwAnswer where
  | accepted | busy | integrity | noIndex
deriving DecidableEq, Repr

/-- The code of an answer. -/
def TwAnswer.code : TwAnswer → BitVec 2
  | .accepted => 0 | .busy => 1 | .integrity => 2 | .noIndex => 3

/-- A read of an index. -/
def twRead (i : Nat) (s : State) : TwAnswer × W32 × State :=
  let d := s.dbg
  if s.evr.returnState && i ≠ 0 && i ≠ 6 then (.noIndex, 0, s)
  else match i with
  | 0 => let (w, s) := readStatusWord s; (.accepted, BitVec.ofNat 32 w, s)
  | 1 =>
    match replyWord 3 s with
    | (some w, s) => (.accepted, w, s)
    | (none, s) => (.busy, 0, s)
  | 2 => (.accepted, d.accAddr.truncate 32, s)
  | 3 => (.accepted, BitVec.ofNat 32 (d.accAddr.toNat / 2 ^ 32 + d.accStatus.toNat * 2 ^ 16 +
      b2n d.accPoisoned * 2 ^ 30 + b2n d.accBusy * 2 ^ 31), s)
  | 4 => (.accepted, d.accData, s)
  | 6 => (.accepted, BitVec.ofNat 32 s.part.idWord, s)
  | _ => (.noIndex, 0, s)

/-- A write of an index. A start while an access is busy is dropped, sets overrun and is answered busy. -/
def twWrite (i : Nat) (v : W32) (s : State) : TwAnswer × State :=
  let d := s.dbg
  if s.evr.returnState && i ≠ 0 && i ≠ 6 then (.noIndex, s)
  else match i with
  | 0 | 6 => (.accepted, s)
  | 1 => (.accepted, commandWord 3 v s)
  | 2 => (.accepted, { s with dbg := { d with accAddr := BitVec.ofNat 48 (d.accAddr.toNat / 2 ^ 32 * 2 ^ 32 + v.toNat) } })
  | 3 =>
    let op : BitVec 2 := v.extractLsb' 30 2
    if d.accBusy then (.busy, startAccess 3 op s)
    else
      let a := BitVec.ofNat 48 (v.toNat % 65536 * 2 ^ 32 + d.accAddr.toNat % 2 ^ 32)
      (.accepted, startAccess 3 op { s with dbg := { d with accAddr := a } })
  | 4 => (.accepted, { s with dbg := { d with accData := v } })
  | _ => (.noIndex, s)

/-- A frame: a command byte without the marker is never taken as a command; a bad parity or check has no effect. -/
def twoWireFrame (command : Byte) (data : W32) (check : BitVec 16) (s : State) : State :=
  if !s.dbgPowered || !s.dbg.twoWire || command.extractLsb' 6 2 != 2 then s
  else
    let write := command.getLsbD 5
    let i := bitsAt command.toNat 1 4
    let parityOk := popCount command.toNat 8 % 2 == 0
    let answer (a : TwAnswer) (w : W32) (s : State) : State :=
      let sum := if a = .accepted && !write then Crypto.crc16 (beBytes 4 w.toNat) else 0
      { s with dbg := { s.dbg with twAnswer := a.code, twData := w, twCheck := sum } }
    if !parityOk || (write && Crypto.crc16 (command :: beBytes 4 data.toNat) != check) then answer .integrity 0 s
    else if write then
      let (a, s) := twWrite i data s
      answer a 0 s
    else
      let (a, w, s) := twRead i s
      answer a w s

/-- TWO_WIRE_FRAME. -/
def execTwoWireFrame (command : Byte) (data : W32) (check : BitVec 16) (s : State) : Host.Outcome State Fault Refusal :=
  .next (twoWireFrame command data check s)

end Sys2Proof.Machine
end

