-- ==== Sys2Proof/Machine/SecCmds.lean ====
section
/-!
DEFINITION. The SEC commands (14 R473 to R478, R494 to R497): the key store, the stored mode, debug sessions and
policies, one definition per row.
-/
namespace Sys2Proof.Machine
open Sys2Proof

/-! ### Key slots (Table 14.8) -/

/-- The slots of a kind. -/
def kindSlots (kind : Nat) : Nat := if kind = 2 then 1 else if kind = 3 then 8 else if kind < 2 then 4 else 0

/-- The number of a slot, as the key store and SEC_SLOTS count them. -/
def slotOf (kind index : Nat) : Nat := if kind = 3 then 16 + index else 4 * kind + index

/-- The size of a kind's key. -/
def keySize (kind : Nat) : Nat := if kind = 3 then 96 else 32

/-- The key in a slot; empty where it holds none. -/
def State.key (s : State) (slot : Nat) : List Byte := SMap.look [] s.sec.keys slot

/-- Writes a slot. -/
def State.setKey (s : State) (slot : Nat) (k : List Byte) : State :=
  { s with sec.keys := SMap.put [] s.sec.keys slot k }

/-- The state conditions of R473 on a slot that exists. -/
def State.slotFree (s : State) (kind index : Nat) : Bool :=
  !(kind = 3 && (s.region index).state != .off) && !(kind = 2 && s.sec.session.isSome) &&
  !(s.sec.stored == .blank && kind ≠ 0)

/-- The check of step 7 of both key commands. -/
def slotState (c : Cmd) (s : State) : Option (BitVec 16) :=
  let kind := fieldAt c.params 0 1
  let index := fieldAt c.params 1 1
  if index < kindSlots kind then needs (s.slotFree kind index) else none

/-- The reply of both: SEC_SLOTS. -/
def answerSlots (s : State) : Answer × State := answerOk (leBytes 4 s.sec.slots) s

/-! ### SEC_KEY_PROVISION (R473, R494) -/

/-- A key is stored: a command key's counter restarts, and the first one opens the part. -/
def provision (kind index : Nat) (key : List Byte) (s : State) : State :=
  let first := s.sec.stored == .blank
  let s := s.setKey (slotOf kind index) key
  let s := if kind = 0 then { s with intake.counters := SMap.put 0 s.intake.counters index 0 } else s
  let s := logEvent 0x2050 [kind, index] s
  if kind = 0 && first then setStored .opened 1 s else s

/-- SEC_KEY_PROVISION: in clear in Blank, otherwise wrapped under the trailer's key. -/
def cardSecKeyProvision : Card where
  opcode := 0x0400
  critical := true
  cls := .security
  lengthOk := fun c =>
    4 ≤ c.paramLength.toNat && c.paramLength.toNat == 4 + roundUp 4 (fieldAt c.params 2 2)
  state := slotState
  param := fun c s =>
    let kind := fieldAt c.params 0 1
    let len := fieldAt c.params 2 2
    inRange (fieldAt c.params 1 1 < kindSlots kind && len == keySize kind + (if s.sec.stored == .blank then 0 else 8) &&
      zeroAt c.params (4 + len) (c.paramLength.toNat - 4 - len))
  run := fun c _ s =>
    let kind := fieldAt c.params 0 1
    let index := fieldAt c.params 1 1
    let material := slice c.params 4 (fieldAt c.params 2 2)
    match (if s.sec.stored = .blank then some material else Crypto.kwUnwrap (s.key c.keySlot) material) with
    | none => answerWith Status.authFail s
    | some key => answerSlots (provision kind index key s)

/-- SEC_KEY_PROVISION. -/
def execSecKeyProvision (c : Cmd) (s : State) : Host.Outcome State Fault Refusal := .next (spatu cardSecKeyProvision c s)

/-! ### SEC_KEY_ERASE (R474, R495) -/

/-- The slot holds the last command key. -/
def State.lastCommandKey (s : State) (kind index : Nat) : Bool :=
  kind == 0 && index < 4 && !(s.key index).isEmpty && (List.range 4).all fun k => k == index || (s.key k).isEmpty

/-- A region uses a provisioned key. -/
def State.regionUsesKey (s : State) : Bool := s.dram.regions.any fun e => e.2.state != .off && !e.2.random

/-- A slot is emptied; with the last command key every other slot is, and the part is Blank again. -/
def eraseKey (kind index : Nat) (s : State) : State :=
  if (s.key (slotOf kind index)).isEmpty then s
  else if s.lastCommandKey kind index then
    setStored .blank 2 (logEvent 0x2051 [kind, index, 1] { s with sec.keys := [] })
  else logEvent 0x2051 [kind, index, 0] (s.setKey (slotOf kind index) [])

/-- SEC_KEY_ERASE. -/
def cardSecKeyErase : Card where
  opcode := 0x0401
  critical := true
  cls := .security
  lengthOk := fun c => c.paramLength == 4
  state := fun c s =>
    let kind := fieldAt c.params 0 1
    let index := fieldAt c.params 1 1
    match slotState c s with
    | some st => some st
    | none => needs (!(s.lastCommandKey kind index && (s.sec.stored == .sealed || s.regionUsesKey)))
  param := fun c _ => inRange (fieldAt c.params 1 1 < kindSlots (fieldAt c.params 0 1) && zeroAt c.params 2 2)
  run := fun c _ s => answerSlots (eraseKey (fieldAt c.params 0 1) (fieldAt c.params 1 1) s)

/-- SEC_KEY_ERASE. -/
def execSecKeyErase (c : Cmd) (s : State) : Host.Outcome State Fault Refusal := .next (spatu cardSecKeyErase c s)

/-! ### SEC_MODE_SET, SEC_POLICY_SET (R475, R495) -/

/-- An implicit session ends with the change to Sealed. -/
def endImplicit (s : State) : State :=
  match s.sec.session with
  | some n => if n.isImplicit then endSession 4 s else s
  | none => s

/-- SEC_MODE_SET: Open to Sealed. -/
def cardSecModeSet : Card where
  opcode := 0x0402
  critical := true
  cls := .security
  lengthOk := fun c => c.paramLength == 4
  state := fun _ s => needs (s.sec.stored == .opened && !(s.key 8).isEmpty)
  param := fun c _ => inRange (fieldAt c.params 0 1 == 2 && zeroAt c.params 1 3)
  run := fun _ _ s =>
    let s := endImplicit (setStored .sealed 0 s)
    answerOk (leBytes 4 s.secMode) s

/-- SEC_MODE_SET. -/
def execSecModeSet (c : Cmd) (s : State) : Host.Outcome State Fault Refusal := .next (spatu cardSecModeSet c s)

/-- SEC_POLICY_SET: in Sealed, tamper is forced to 1. -/
def cardSecPolicySet : Card where
  opcode := 0x0405
  critical := true
  cls := .security
  lengthOk := fun c => c.paramLength == 4
  param := fun c _ => inRange (fieldAt c.params 0 1 < 32 && zeroAt c.params 1 3)
  run := fun c _ s =>
    let p : BitVec 5 := BitVec.ofNat 5 (fieldAt c.params 0 1)
    let p := if s.sec.stored = .sealed then setBit p 2 true else p
    answerOk (leBytes 4 p.toNat) (logEvent 0x2053 [p.toNat] { s with sec.policy := p })

/-- SEC_POLICY_SET. -/
def execSecPolicySet (c : Cmd) (s : State) : Host.Outcome State Fault Refusal := .next (spatu cardSecPolicySet c s)

/-! ### Debug sessions (R477, R478, R496) -/

/-- Draw number `n` of a part_nonce: free bytes. -/
def drawNonce (n : Nat) : List Byte := (List.range 16).map (Config.freeByte n)

/-- A fresh part_nonce from draw `n` on, drawn again while its key_id comes out as 0 (for up to `fuel` draws: assumption log 60). -/
def freshNonce (kd hn : List Byte) : Nat → Nat → Nat × List Byte
  | 0, n => (n, drawNonce n)
  | fuel + 1, n =>
    if !kd.isEmpty && leNat (Crypto.keyId kd (drawNonce n) hn) = 0 then freshNonce kd hn fuel (n + 1)
    else (n, drawNonce n)

/-- The session opens, or replaces the owner's own. -/
def openSession (c : Cmd) (pn hn : List Byte) (s : State) : Answer × State :=
  let kd := s.key 8
  let id : W64 := if kd.isEmpty then 0 else BitVec.ofNat 64 (leNat (Crypto.keyId kd pn hn))
  let n : Session :=
    { isImplicit := false, port := c.port, source := c.source, keyId := id
      captureKey := if kd.isEmpty then none else some (Crypto.captureKey kd pn hn) }
  let s := { s with sec.session := some n }
  answerOk (pn ++ leBytes 8 id.toNat ++ List.replicate 8 0) (logEvent 0x2060 [c.port.val, c.source.toNat, 0, id.toNat] s)

/-- SEC_DEBUG_UNLOCK. -/
def cardSecDebugUnlock : Card where
  opcode := 0x0403
  critical := true
  cls := .security
  lengthOk := fun c => c.paramLength == 36
  state := fun c s =>
    needs ((s.sec.session.isNone || s.ownsSession c) && !(s.sec.stored == .sealed && (s.key 8).isEmpty))
  param := fun c s =>
    let a := fieldAt c.params 0 1
    let kd := s.key 8
    inRange (zeroAt c.params 1 3 &&
      (if a = 0 then zeroAt c.params 20 16
       else a = 1 && (kd.isEmpty || leNat (Crypto.keyId kd (slice c.params 20 16) (slice c.params 4 16)) ≠ 0)))
  run := fun c _ s =>
    let hn := slice c.params 4 16
    if fieldAt c.params 0 1 = 0 then
      let (n, pn) := freshNonce (s.key 8) hn 8 s.freeNo
      openSession c pn hn { s with freeNo := n + 1 }
    else openSession c (slice c.params 20 16) hn s

/-- SEC_DEBUG_UNLOCK. -/
def execSecDebugUnlock (c : Cmd) (s : State) : Host.Outcome State Fault Refusal := .next (spatu cardSecDebugUnlock c s)

/-- SEC_DEBUG_LOCK. -/
def cardSecDebugLock : Card where
  opcode := 0x0404
  critical := false
  cls := .security
  lengthOk := fun c => c.paramLength == 0
  state := fun c s => needs (s.ownsSession c)
  run := fun _ _ s =>
    let s := endSession 0 s
    answerOk (leBytes 4 s.sec.sessionWord) s

/-- SEC_DEBUG_LOCK. -/
def execSecDebugLock (c : Cmd) (s : State) : Host.Outcome State Fault Refusal := .next (spatu cardSecDebugLock c s)

/-- SEC_STATUS: the eight SEC registers (R497). -/
def cardSecStatus : Card where
  opcode := 0x0406
  critical := false
  cls := .identity
  lengthOk := fun c => c.paramLength == 0
  run := fun _ _ s =>
    answerOk ([0x00, 0x04, 0x08, 0x0C, 0x10, 0x14, 0x18, 0x20].map fun o => leBytes 4 (s.readSec o)).flatten s

/-- SEC_STATUS. -/
def execSecStatus (c : Cmd) (s : State) : Host.Outcome State Fault Refusal := .next (spatu cardSecStatus c s)

end Sys2Proof.Machine
end

