-- ==== Sys2Proof/Machine/DramRows.lean ====
section
/-!
DEFINITION. The DRAM controllers' rows and the DRC and MEK commands (13), one definition per row.
-/
namespace Sys2Proof.Machine
open Sys2Proof

/-! ### Requests (R434, R435) -/

/-- DRAM_PORT_REQUEST: a request reaches a DRAM port. -/
def execDramPortRequest (port : Fin 16) (r : GReq) (s : State) : Host.Outcome State Fault Refusal :=
  .next (dramAccept port.val r s)

/-- DRAM_ISSUE: the scheduler issues an entry of a port's queue. -/
def execDramIssue (port : Fin 16) (index : Nat) (decodes : List LineDecode) (evict : Nat) (s : State) :
    Host.Outcome State Fault Refusal := .next (dramIssueAt port.val index decodes evict s)

/-! ### Refresh and re-centring (R432, R436) -/

/-- The channel is in service with a DIMM in the slot. -/
def State.dimmServes (s : State) (c dimm : Nat) : Bool :=
  (s.chan c).state == .trained && decide (dimm < (s.dimmsOf c).count)

/-- DRAM_REFRESH: an all-bank refresh, every tREFI of the DIMM. -/
def execDramRefresh (chan : Fin 8) (dimm : Fin 2) (s : State) : Host.Outcome State Fault Refusal :=
  .next (if s.dimmServes chan.val dimm.val then
      s.setChan chan.val fun x => { x with refreshes := x.refreshes + 1 }
    else s)

/-- An MR4 code above the 1x rate: 3 to 5 in bits [2:0], of which 5 is beyond the operating range (DDR5; assumption
log 66). -/
def mr4Halves (code : BitVec 8) : Bool := decide (3 ≤ code.toNat % 8) && decide (code.toNat % 8 ≤ 5)

/-- MR4_POLL: the highest code that a DIMM's devices report (R436). -/
def mr4 (c dimm : Nat) (code : BitVec 8) (s : State) : State :=
  if !s.dimmServes c dimm then s
  else
    let half := mr4Halves code
    let old := if dimm = 0 then (s.chan c).halved0 else (s.chan c).halved1
    let s := s.setChan c fun x =>
      if dimm = 0 then { x with code0 := code, halved0 := half } else { x with code1 := code, halved1 := half }
    let s := if half != old then logEvent 0x7020 [c, dimm, b2n half, code.toNat] s else s
    if code.toNat % 8 = 5 then logEvent 0x7021 [c, dimm, code.toNat] s else s

def execMr4Poll (chan : Fin 8) (dimm : Fin 2) (code : BitVec 8) (s : State) : Host.Outcome State Fault Refusal :=
  .next (mr4 chan.val dimm.val code s)

/-- DRAM_RECENTRE (R432). -/
def execDramRecentre (chan : Fin 8) (up : Bool) (s : State) : Host.Outcome State Fault Refusal :=
  .next (dramStep chan.val up s)

/-! ### Training (R429, R431, R433, R455) -/

/-- The completion data of DRC_TRAIN. -/
def State.trainData (s : State) : List Byte :=
  (List.range 8).flatMap (fun c => leBytes 4 (s.chanWord c) ++ leBytes 4 (s.chan c).capGiB.toNat) ++
    leBytes 8 s.dram.installed.toNat

/-- The regions after a wake (R433, T13.4): back with their keys unwrapped and their roots, or KEYLESS where a channel
failed or the wrap is gone. -/
def restoreRegions (failed : Bool) (s : State) : State :=
  let dk := (List.range 32).map Config.deviceKey
  let s := s.power.retRegions.foldl (fun s e =>
    let key := (Crypto.kwUnwrap dk (SMap.look [] s.power.wraps e.1)).getD []
    let m := { e.2 with key := key, roots := SMap.look [] s.power.retRoots e.1 }
    let s := { s with dram.regions := SMap.put {} s.dram.regions e.1 m }
    if failed then regionKeyless 2 e.1 s else if key.isEmpty then regionKeyless 1 e.1 s else s) s
  { s with power := { s.power with retRegions := [], retRoots := [], wraps := [] } }

/-- One channel's training ends, at a speed of Table 13.1 no higher than a DRC_TRAIN's cap; without one the DIMMs are not
supported (cause 2, assumption log 66). A wake's training writes nothing, and its failure has the cause of its own (T13.8). -/
def endTraining (waking : Bool) (t : ChanTrain) (s : State) : State :=
  if (s.chan t.chan.val).state ≠ .training then s
  else
    let cap := match s.dram.trainCmd with | some (_, _, _, _, m) => m | none => 0
    let t : ChanTrain := match (s.dimmsOf t.chan.val).speedUnder (if cap = 0 then t.mts.toNat else min cap t.mts.toNat) with
      | some v => { t with mts := BitVec.ofNat 16 v }
      | none => { t with cause := if t.cause = 0 then 2 else t.cause }
    if waking then trainedChan (if t.cause = 0 then t else { t with cause := 8 }) s
    else trainedChan t (loseContents t.chan.val s)

/-- DRAM_TRAINING: channels end their training; with the last of them the installed size follows, regions return
after a wake, and a DRC_TRAIN completes. -/
def trainDram (results : List ChanTrain) (s : State) : State :=
  let waking := s.power.resetCause == .wake && s.dram.trainCmd.isNone
  let s := results.foldl (fun s t => endTraining waking t s) s
  if (List.range 8).any fun c => (s.chan c).state == .training then s
  else
    let s := setInstalled s
    let s := if waking then restoreRegions ((List.range 8).any fun c => (s.chan c).state == .failed) s else s
    match s.dram.trainCmd with
    | none => s
    | some (port, source, tag, mask, _) =>
      let bad := (bitList mask.toNat 8).any fun c => (s.chan c).state == .failed
      finishEntry port source tag (if bad then Status.badState else Status.ok) s.trainData
        { s with dram.trainCmd := none }

def execDramTraining (results : List ChanTrain) (s : State) : Host.Outcome State Fault Refusal :=
  .next (trainDram results s)

/-- DRC_TRAIN (R455): the masked channels that have a DIMM train. -/
def cardDrcTrain : Card where
  opcode := 0x0900
  critical := true
  cls := .operation
  holdOk _ _ := false
  background _ := true
  lengthOk c := c.paramLength == 4
  state c s :=
    let mask := fieldAt c.params 0 1
    needs (((List.range 8).all fun r => (s.region r).state == .off) && s.dram.trainCmd.isNone &&
      (bitList mask 8).all fun n => (s.chan n).state != .training)
  param c _ :=
    let cap := fieldAt c.params 2 2
    inRange (fieldAt c.params 0 1 != 0 && zeroAt c.params 1 1 && (cap == 0 || decide (4800 ≤ cap)))
  run c _ s :=
    let chans := (bitList (fieldAt c.params 0 1) 8).filter fun n => (s.dimmsOf n).count != 0
    let s := chans.foldl (fun s n =>
      (drainPort (2 * n + 1) (drainPort (2 * n) s)).setChan n fun x => { x with state := .training }) s
    let cmd := (c.port, c.source, c.tag, BitVec.ofNat 8 (fieldAt c.params 0 1), fieldAt c.params 2 2)
    let s := { s with dram.trainCmd := some cmd }
    (.accepted, if chans.isEmpty then trainDram [] s else s)

def execDrcTrain (c : Cmd) (s : State) : Host.Outcome State Fault Refusal := .next (spatu cardDrcTrain c s)

/-- DRC_STATUS (R456). -/
def cardDrcStatus : Card where
  opcode := 0x0901
  critical := false
  cls := .identity
  lengthOk c := c.paramLength == 0
  run _ _ s :=
    let chan (c : Nat) : List Byte := (List.range 10).flatMap fun i => leBytes 4 (s.drcWord c i)
    answerOk (leBytes 8 s.dram.installed.toNat ++ leBytes 4 s.drcSummary ++ leBytes 4 0 ++ (List.range 8).flatMap chan) s

def execDrcStatus (c : Cmd) (s : State) : Host.Outcome State Fault Refusal := .next (spatu cardDrcStatus c s)

/-! ### Regions (R442 to R450, R457) -/

/-- Two ranges share a byte. -/
def rangesMeet (a n b m : Nat) : Bool := decide (a < b + m) && decide (b < a + n)

/-- The ranges that the regions other than OFF occupy: data and carve-outs. -/
def State.usedRanges (s : State) : List (Nat × Nat) :=
  (List.range 8).flatMap fun r =>
    let m := s.region r
    if m.state == .off then [] else [(m.baseGiB.toNat * giB, m.size), (m.metaBase.toNat, m.metaLen.toNat)]

/-- The parameters of MEK_REGION_SET lie in their ranges (T13.13, R442). -/
def regionOk (c : Cmd) (s : State) : Bool :=
  let (base, size, mbase) := (fieldAt c.params 8 8, fieldAt c.params 16 8, fieldAt c.params 24 8)
  let mlen := metaLenOf size
  decide (fieldAt c.params 0 1 ≤ 7) && decide (fieldAt c.params 1 1 ≤ 1) && decide (fieldAt c.params 2 1 ≤ 1) &&
  zeroAt c.params 3 5 &&
  (fieldAt c.params 1 1 == 1 ||
    (base % giB == 0 && size % giB == 0 && decide (giB ≤ size) && mbase % 4096 == 0 &&
      decide (base + size ≤ s.dram.installed.toNat) && decide (mbase + mlen ≤ s.dram.installed.toNat) &&
      !rangesMeet base size mbase mlen &&
      s.usedRanges.all fun u => !rangesMeet base size u.1 u.2 && !rangesMeet mbase mlen u.1 u.2))

/-- Enabling a region (R450): the key is taken and initialisation begins. -/
def enableRegion (c : Cmd) (s : State) : State :=
  let r := fieldAt c.params 0 1
  let random := fieldAt c.params 2 1 == 1
  let s := drainDram s
  let (key, s) := if random then ((List.range 96).map (Config.freeByte s.freeNo), s.stepFree) else (s.key (16 + r), s)
  let size := fieldAt c.params 16 8
  let ls := levelsOf size
  let m : MekRegion :=
    { state := .initialising, baseGiB := BitVec.ofNat 13 (fieldAt c.params 8 8 / giB), sizeGiB := BitVec.ofNat 13 (size / giB)
      metaBase := BitVec.ofNat 48 (fieldAt c.params 24 8), metaLen := BitVec.ofNat 64 (metaLenOf size), random
      levels := BitVec.ofNat 4 ls.length, rootUsed := BitVec.ofNat 4 (ls.getLastD 0), roots := [], integ := (s.region r).integ
      maxCtr := 0, key, cmd := some (c.port, c.source, c.tag) }
  { s with dram.regions := SMap.put {} s.dram.regions r m }

/-- A region goes OFF: its cached metadata, its root and a random key are gone; its addresses become plain DRAM holding
ciphertext (R450). -/
def dropRegion (r : Nat) (s : State) : State :=
  let m := s.region r
  { s with dram := { s.dram with
      cache := s.dram.cache.filter fun e => !m.carves (64 * e.1)
      regions := SMap.put {} s.dram.regions r { integ := m.integ } } }

/-- MEK_REGION_SET (R457). -/
def cardMekRegionSet : Card where
  opcode := 0x0910
  critical := true
  cls := .operation
  holdOk _ _ := false
  background c := fieldAt c.params 1 1 == 0
  lengthOk c := c.paramLength == 32
  state c s :=
    let r := fieldAt c.params 0 1
    let st := (s.region r).state
    if 7 < r || 1 < fieldAt c.params 1 1 then none
    else if fieldAt c.params 1 1 = 0 then
      needs (st == .off && (fieldAt c.params 2 1 != 0 || !(s.key (16 + r)).isEmpty))
    else needs (st != .off && st != .initialising)
  param c s := inRange (regionOk c s)
  run c _ s :=
    let r := fieldAt c.params 0 1
    if fieldAt c.params 1 1 = 0 then (.accepted, enableRegion c s)
    else
      let s := logEvent 0x7102 [r, 0] (dropRegion r (drainDram s))
      answerOk (leBytes 4 (s.region r).ctl) s

def execMekRegionSet (c : Cmd) (s : State) : Host.Outcome State Fault Refusal := .next (spatu cardMekRegionSet c s)

/-- Initialisation has written a region (R450). -/
def initRegion (r : Nat) (m : MekRegion) (s : State) : State :=
  let d := s.dram
  let inside (a : Nat) : Bool :=
    (decide (m.baseGiB.toNat * giB ≤ a) && decide (a < m.baseGiB.toNat * giB + m.size)) || m.carves a
  let f : Fill :=
    { base := m.baseGiB.toNat * giB, size := m.size, metaBase := m.metaBase.toNat, metaLen := m.metaLen.toNat
      key := m.key, stamp := d.epoch }
  { s with dram := { d with
      mem := d.mem.filter (fun e => !inside e.1), poisoned := d.poisoned.filter (fun e => !inside (64 * e.1))
      fills := f :: d.fills, regions := SMap.put {} d.regions r { m with state := .active, cmd := none } } }

/-- REGION_INIT_DONE: every write of an initialisation is done, or one met an error (R457). -/
def regionInit (r : Nat) (status : BitVec 4) (s : State) : State :=
  let m := s.region r
  if m.state ≠ .initialising then s
  else
    let finish (st : BitVec 16) (data : List Byte) (s : State) : State :=
      match m.cmd with | some (port, source, tag) => finishEntry port source tag st data s | none => s
    if status = 0 then
      let s := initRegion r m s
      let s := logEvent 0x7101 [r, m.baseGiB.toNat * giB, m.size, b2n m.random, m.levels.toNat] s
      finish Status.ok (leBytes 4 (s.region r).ctl ++ leBytes 4 0 ++ leBytes 8 m.metaLen.toNat) s
    else finish (readError status) [] (dropRegion r s)

def execRegionInitDone (region : Fin 8) (status : BitVec 4) (s : State) : Host.Outcome State Fault Refusal :=
  .next (regionInit region.val status s)

/-- MEK_STATUS (R458). -/
def cardMekStatus : Card where
  opcode := 0x0911
  critical := false
  cls := .identity
  lengthOk c := c.paramLength == 0
  run _ _ s :=
    let word (o : Nat) : List Byte := leBytes 4 (s.readMek o)
    let region (r : Nat) : List Byte := (List.range 10).flatMap fun i => leBytes 4 (s.mekWord r i)
    answerOk ([0x00, 0x04, 0x08, 0x0C].flatMap word ++ (List.range 8).flatMap region) s

def execMekStatus (c : Cmd) (s : State) : Host.Outcome State Fault Refusal := .next (spatu cardMekStatus c s)

end Sys2Proof.Machine
end

