-- ==== Sys2Proof/Machine/EngArith.lean ====
section
/-!
DEFINITION. The engines' ALU class, immediate forms and address-generator moves (12 T12.8, T12.9): each
operation over the registers, and the meaning of each instruction as a 32-bit word (R421). The same
operations serve as compute words of a 64-bit instruction (R426).
-/
namespace Sys2Proof.Machine
open Sys2Proof

/-! ### Shapes -/

/-- An operation of two g registers. -/
def alu2 (ra rb : Fin 32) (f : Engine → W32 → W32 → Bool → Engine) : EngOp := fun x =>
  .ok (f x (x.gr ra).v (x.gr rb).v ((x.gr ra).p || (x.gr rb).p))

/-- An operation of one g register. -/
def alu1 (ra : Fin 32) (f : Engine → W32 → Bool → Engine) : EngOp := fun x =>
  .ok (f x (x.gr ra).v (x.gr ra).p)

/-- Shift amounts: gb[5:0]; 32 or more shifts every bit out (T12.9). -/
def shiftAmount (b : W32) : Nat := b.toNat % 64

/-- 1 or 0 as a register value. -/
def boolWord (b : Bool) : W32 := if b then 1 else 0

/-! ### Operations of T12.9, major 0x00 -/

/-- ADD. -/
def opAdd (rd ra rb : Fin 32) : EngOp := alu2 ra rb fun x a b p => x.addOp rd false a b p

/-- SUB. -/
def opSub (rd ra rb : Fin 32) : EngOp := alu2 ra rb fun x a b p => x.addOp rd true a b p

/-- AND. -/
def opAnd (rd ra rb : Fin 32) : EngOp := alu2 ra rb fun x a b p => x.logicOut rd (a &&& b) p

/-- OR. -/
def opOr (rd ra rb : Fin 32) : EngOp := alu2 ra rb fun x a b p => x.logicOut rd (a ||| b) p

/-- XOR. -/
def opXor (rd ra rb : Fin 32) : EngOp := alu2 ra rb fun x a b p => x.logicOut rd (a ^^^ b) p

/-- SHL. -/
def opShl (rd ra rb : Fin 32) : EngOp := alu2 ra rb fun x a b p => x.logicOut rd (a <<< shiftAmount b) p

/-- SHR. -/
def opShr (rd ra rb : Fin 32) : EngOp := alu2 ra rb fun x a b p => x.logicOut rd (a >>> shiftAmount b) p

/-- ASR: sign copies from 32 on. -/
def opAsr (rd ra rb : Fin 32) : EngOp := alu2 ra rb fun x a b p => x.logicOut rd (a.sshiftRight (shiftAmount b)) p

/-- SLT. -/
def opSlt (rd ra rb : Fin 32) : EngOp := alu2 ra rb fun x a b p => x.aluOut rd (boolWord (a.slt b)) p

/-- SLTU. -/
def opSltu (rd ra rb : Fin 32) : EngOp := alu2 ra rb fun x a b p => x.aluOut rd (boolWord (a.ult b)) p

/-- MIN, signed. -/
def opMin (rd ra rb : Fin 32) : EngOp := alu2 ra rb fun x a b p => x.aluOut rd (if a.slt b then a else b) p

/-- MAX, signed. -/
def opMax (rd ra rb : Fin 32) : EngOp := alu2 ra rb fun x a b p => x.aluOut rd (if a.slt b then b else a) p

/-- ABS: under sat_en 0x8000_0000 gives 0x7FFF_FFFF. -/
def opAbs (rd ra : Fin 32) : EngOp := alu1 ra fun x a p => x.satOut rd (Int.natAbs a.toInt) x.satEn p

/-- NEG. -/
def opNeg (rd ra : Fin 32) : EngOp := alu1 ra fun x a p => x.satOut rd (-a.toInt) x.satEn p

/-- ADDS: always saturating. -/
def opAdds (rd ra rb : Fin 32) : EngOp := alu2 ra rb fun x a b p => x.satOut rd (exactSum false a b) true p

/-- SUBS. -/
def opSubs (rd ra rb : Fin 32) : EngOp := alu2 ra rb fun x a b p => x.satOut rd (exactSum true a b) true p

/-- MUL: the low 32 bits. -/
def opMul (rd ra rb : Fin 32) : EngOp := alu2 ra rb fun x a b p => x.aluOut rd (a * b) p

/-- MULH: the high 32 bits of the signed product. -/
def opMulh (rd ra rb : Fin 32) : EngOp := alu2 ra rb fun x a b p =>
  x.aluOut rd (BitVec.ofInt 32 (a.toInt * b.toInt / 2 ^ 32)) p

/-- MULHU: the high 32 bits of the unsigned product. -/
def opMulhu (rd ra rb : Fin 32) : EngOp := alu2 ra rb fun x a b p =>
  x.aluOut rd (BitVec.ofNat 32 (a.toNat * b.toNat / 2 ^ 32)) p

/-- CMP. -/
def opCmp (ra rb : Fin 32) : EngOp := alu2 ra rb fun x a b p => x.cmpOp a b p

/-- EXP (R416): no flag changes (R415). -/
def opExp (rd ra : Fin 32) : EngOp := alu1 ra fun x a p => x.setG rd (BitVec.ofNat 32 (signBits 32 a.toNat)) p

/-- The smaller of gd and a count, signed as MIN compares. -/
def minWith (x : Engine) (rd : Fin 32) (n : Nat) (p : Bool) : Engine :=
  let g := x.gr rd
  x.setG rd (if g.v.slt (BitVec.ofNat 32 n) then g.v else BitVec.ofNat 32 n) (p || g.p)

/-- EXPMIN. -/
def opExpmin (rd ra : Fin 32) : EngOp := alu1 ra fun x a p => minWith x rd (signBits 32 a.toNat) p

/-- NORM: a shift (R416). -/
def opNorm (rd ra rb : Fin 32) : EngOp := alu2 ra rb fun x a b p => x.logicOut rd (normShift 32 a.toInt b.toInt) p

/-- The lanes of two sources combined by `f`. -/
def lanes2 (a b : W32) (f : Int → Int → Int) : Int × Int :=
  (f (laneInt a.toNat 0) (laneInt b.toNat 0), f (laneInt a.toNat 1) (laneInt b.toNat 1))

/-- ADD.2H. -/
def opAdd2h (rd ra rb : Fin 32) : EngOp := alu2 ra rb fun x a b p =>
  let l := lanes2 a b (· + ·)
  x.lanesOut rd l.1 l.2 p

/-- SUB.2H. -/
def opSub2h (rd ra rb : Fin 32) : EngOp := alu2 ra rb fun x a b p =>
  let l := lanes2 a b (· - ·)
  x.lanesOut rd l.1 l.2 p

/-- HADD.2H. -/
def opHadd2h (rd ra rb : Fin 32) : EngOp := alu2 ra rb fun x a b p =>
  let l := lanes2 a b fun u v => halveLane x.rnd (u + v)
  x.setG rd (packLanes l.1 l.2) p

/-- HSUB.2H. -/
def opHsub2h (rd ra rb : Fin 32) : EngOp := alu2 ra rb fun x a b p =>
  let l := lanes2 a b fun u v => halveLane x.rnd (u - v)
  x.setG rd (packLanes l.1 l.2) p

/-- An odd register where an even one is required is an undefined encoding (R424). -/
def needEven (r : Fin 32) (op : EngOp) : EngOp := fun x => if r.val % 2 = 1 then .error 1 else op x

/-- BF.2H. -/
def opBf2h (rd ra rb : Fin 32) : EngOp := needEven rd <| alu2 ra rb fun x a b p =>
  let s := lanes2 a b (· + ·)
  let d := lanes2 a b (· - ·)
  (x.lanesOut rd s.1 s.2 p).lanesOut (rd.val + 1) d.1 d.2 p

/-- HBF.2H. -/
def opHbf2h (rd ra rb : Fin 32) : EngOp := needEven rd <| alu2 ra rb fun x a b p =>
  let s := lanes2 a b fun u v => halveLane x.rnd (u + v)
  let d := lanes2 a b fun u v => halveLane x.rnd (u - v)
  (x.setG rd (packLanes s.1 s.2) p).setG (rd.val + 1) (packLanes d.1 d.2) p

/-- The smallest redundant-sign count of the four lanes of a pair (R416). -/
def pairExp (v : W64) : Nat :=
  ((List.range 4).map fun k => signBits 16 (bitsAt v.toNat (16 * k) 16)).foldl min 15

/-- EXP.Q. -/
def opExpq (rd ra : Fin 32) : EngOp := needEven ra fun x =>
  let d := x.pairVal ra
  .ok (x.setG rd (BitVec.ofNat 32 (pairExp d.1)) d.2)

/-- EXPMIN.Q. -/
def opExpminq (rd ra : Fin 32) : EngOp := needEven ra fun x =>
  let d := x.pairVal ra
  .ok (minWith x rd (pairExp d.1) d.2)

/-! ### Immediate forms -/

/-- ADDI: the immediate is sign-extended. -/
def opAddi (rd ra : Fin 32) (imm : BitVec 16) : EngOp := alu1 ra fun x a p => x.addOp rd false a (imm.signExtend 32) p

/-- ANDI: the immediate is zero-extended. -/
def opAndi (rd ra : Fin 32) (imm : BitVec 16) : EngOp := alu1 ra fun x a p => x.logicOut rd (a &&& imm.zeroExtend 32) p

/-- ORI. -/
def opOri (rd ra : Fin 32) (imm : BitVec 16) : EngOp := alu1 ra fun x a p => x.logicOut rd (a ||| imm.zeroExtend 32) p

/-- XORI. -/
def opXori (rd ra : Fin 32) (imm : BitVec 16) : EngOp := alu1 ra fun x a p => x.logicOut rd (a ^^^ imm.zeroExtend 32) p

/-- SLTI. -/
def opSlti (rd ra : Fin 32) (imm : BitVec 16) : EngOp := alu1 ra fun x a p =>
  x.aluOut rd (boolWord (a.slt (imm.signExtend 32))) p

/-- LUI. -/
def opLui (rd : Fin 32) (imm : BitVec 16) : EngOp := fun x => .ok (x.aluOut rd (imm.zeroExtend 32 <<< 16) false)

/-- SHI: imm[4:0] the amount, imm[7:6] the shift; any other immediate is an undefined encoding (R424). -/
def opShi (rd ra : Fin 32) (imm : BitVec 16) : EngOp := fun x =>
  let n := imm.toNat % 32
  let a := (x.gr ra).v
  let p := (x.gr ra).p
  if imm &&& 0xFF20 ≠ 0 then .error 1
  else match bitsAt imm.toNat 6 2 with
    | 0 => .ok (x.logicOut rd (a <<< n) p)
    | 1 => .ok (x.logicOut rd (a >>> n) p)
    | 2 => .ok (x.logicOut rd (a.sshiftRight n) p)
    | _ => .error 1

/-! ### Pointers, modifiers and special registers -/

/-- MVP. -/
def opMvp (p : Fin 8) (ra : Fin 32) : EngOp := alu1 ra fun x a b => x.setP p a b

/-- MVG. -/
def opMvg (rd : Fin 32) (p : Fin 8) : EngOp := fun x => .ok (x.setG rd (x.pr p).v (x.pr p).p)

/-- MVM. -/
def opMvm (m : Fin 8) (ra : Fin 32) : EngOp := alu1 ra fun x a b => x.setM m a b

/-- MVMG. -/
def opMvmg (rd : Fin 32) (m : Fin 8) : EngOp := fun x => .ok (x.setG rd (x.mr m).v (x.mr m).p)

/-- ADDP: a poisoned pointer is used as a pointer (R385). -/
def opAddp (p : Fin 8) (imm : BitVec 16) : EngOp := fun x =>
  if (x.pr p).p then .error 7 else .ok (x.setP p (x.postModify p (imm.signExtend 32)) false)

/-- MVS: an unlisted index is an undefined encoding (R407); a poisoned value raises POISON (R405). -/
def opMvs (idx ra : Fin 32) : EngOp := fun x =>
  if !specialListed idx then .error 1
  else if (x.gr ra).p then .error 7
  else .ok (x.setSpecial idx (x.gr ra).v)

/-- MVSG. -/
def opMvsg (rd idx : Fin 32) : EngOp := fun x =>
  if !specialListed idx then .error 1 else .ok (x.setG rd (x.special idx).1 (x.special idx).2)

/-! ### The instructions -/

/-- ADD as an instruction of engine `e`. -/
def execAdd (e : Fin 192) (rd ra rb : Fin 32) (s : State) : Host.Outcome State Fault Refusal :=
  .next (runEng e (opAdd rd ra rb) s)

/-- SUB as an instruction of engine `e`. -/
def execSub (e : Fin 192) (rd ra rb : Fin 32) (s : State) : Host.Outcome State Fault Refusal :=
  .next (runEng e (opSub rd ra rb) s)

/-- AND as an instruction of engine `e`. -/
def execAnd (e : Fin 192) (rd ra rb : Fin 32) (s : State) : Host.Outcome State Fault Refusal :=
  .next (runEng e (opAnd rd ra rb) s)

/-- OR as an instruction of engine `e`. -/
def execOr (e : Fin 192) (rd ra rb : Fin 32) (s : State) : Host.Outcome State Fault Refusal :=
  .next (runEng e (opOr rd ra rb) s)

/-- XOR as an instruction of engine `e`. -/
def execXor (e : Fin 192) (rd ra rb : Fin 32) (s : State) : Host.Outcome State Fault Refusal :=
  .next (runEng e (opXor rd ra rb) s)

/-- SHL as an instruction of engine `e`. -/
def execShl (e : Fin 192) (rd ra rb : Fin 32) (s : State) : Host.Outcome State Fault Refusal :=
  .next (runEng e (opShl rd ra rb) s)

/-- SHR as an instruction of engine `e`. -/
def execShr (e : Fin 192) (rd ra rb : Fin 32) (s : State) : Host.Outcome State Fault Refusal :=
  .next (runEng e (opShr rd ra rb) s)

/-- ASR as an instruction of engine `e`. -/
def execAsr (e : Fin 192) (rd ra rb : Fin 32) (s : State) : Host.Outcome State Fault Refusal :=
  .next (runEng e (opAsr rd ra rb) s)

/-- SLT as an instruction of engine `e`. -/
def execSlt (e : Fin 192) (rd ra rb : Fin 32) (s : State) : Host.Outcome State Fault Refusal :=
  .next (runEng e (opSlt rd ra rb) s)

/-- SLTU as an instruction of engine `e`. -/
def execSltu (e : Fin 192) (rd ra rb : Fin 32) (s : State) : Host.Outcome State Fault Refusal :=
  .next (runEng e (opSltu rd ra rb) s)

/-- MIN as an instruction of engine `e`. -/
def execMin (e : Fin 192) (rd ra rb : Fin 32) (s : State) : Host.Outcome State Fault Refusal :=
  .next (runEng e (opMin rd ra rb) s)

/-- MAX as an instruction of engine `e`. -/
def execMax (e : Fin 192) (rd ra rb : Fin 32) (s : State) : Host.Outcome State Fault Refusal :=
  .next (runEng e (opMax rd ra rb) s)

/-- ADDS as an instruction of engine `e`. -/
def execAdds (e : Fin 192) (rd ra rb : Fin 32) (s : State) : Host.Outcome State Fault Refusal :=
  .next (runEng e (opAdds rd ra rb) s)

/-- SUBS as an instruction of engine `e`. -/
def execSubs (e : Fin 192) (rd ra rb : Fin 32) (s : State) : Host.Outcome State Fault Refusal :=
  .next (runEng e (opSubs rd ra rb) s)

/-- MUL as an instruction of engine `e`. -/
def execMul (e : Fin 192) (rd ra rb : Fin 32) (s : State) : Host.Outcome State Fault Refusal :=
  .next (runEng e (opMul rd ra rb) s)

/-- MULH as an instruction of engine `e`. -/
def execMulh (e : Fin 192) (rd ra rb : Fin 32) (s : State) : Host.Outcome State Fault Refusal :=
  .next (runEng e (opMulh rd ra rb) s)

/-- MULHU as an instruction of engine `e`. -/
def execMulhu (e : Fin 192) (rd ra rb : Fin 32) (s : State) : Host.Outcome State Fault Refusal :=
  .next (runEng e (opMulhu rd ra rb) s)

/-- NORM as an instruction of engine `e`. -/
def execNorm (e : Fin 192) (rd ra rb : Fin 32) (s : State) : Host.Outcome State Fault Refusal :=
  .next (runEng e (opNorm rd ra rb) s)

/-- ADD.2H as an instruction of engine `e`. -/
def execAdd2h (e : Fin 192) (rd ra rb : Fin 32) (s : State) : Host.Outcome State Fault Refusal :=
  .next (runEng e (opAdd2h rd ra rb) s)

/-- SUB.2H as an instruction of engine `e`. -/
def execSub2h (e : Fin 192) (rd ra rb : Fin 32) (s : State) : Host.Outcome State Fault Refusal :=
  .next (runEng e (opSub2h rd ra rb) s)

/-- HADD.2H as an instruction of engine `e`. -/
def execHadd2h (e : Fin 192) (rd ra rb : Fin 32) (s : State) : Host.Outcome State Fault Refusal :=
  .next (runEng e (opHadd2h rd ra rb) s)

/-- HSUB.2H as an instruction of engine `e`. -/
def execHsub2h (e : Fin 192) (rd ra rb : Fin 32) (s : State) : Host.Outcome State Fault Refusal :=
  .next (runEng e (opHsub2h rd ra rb) s)

/-- BF.2H as an instruction of engine `e`. -/
def execBf2h (e : Fin 192) (rd ra rb : Fin 32) (s : State) : Host.Outcome State Fault Refusal :=
  .next (runEng e (opBf2h rd ra rb) s)

/-- HBF.2H as an instruction of engine `e`. -/
def execHbf2h (e : Fin 192) (rd ra rb : Fin 32) (s : State) : Host.Outcome State Fault Refusal :=
  .next (runEng e (opHbf2h rd ra rb) s)

/-- ABS as an instruction of engine `e`. -/
def execAbs (e : Fin 192) (rd ra : Fin 32) (s : State) : Host.Outcome State Fault Refusal :=
  .next (runEng e (opAbs rd ra) s)

/-- NEG as an instruction of engine `e`. -/
def execNeg (e : Fin 192) (rd ra : Fin 32) (s : State) : Host.Outcome State Fault Refusal :=
  .next (runEng e (opNeg rd ra) s)

/-- EXP as an instruction of engine `e`. -/
def execExp (e : Fin 192) (rd ra : Fin 32) (s : State) : Host.Outcome State Fault Refusal :=
  .next (runEng e (opExp rd ra) s)

/-- EXPMIN as an instruction of engine `e`. -/
def execExpmin (e : Fin 192) (rd ra : Fin 32) (s : State) : Host.Outcome State Fault Refusal :=
  .next (runEng e (opExpmin rd ra) s)

/-- EXP.Q as an instruction of engine `e`. -/
def execExpq (e : Fin 192) (rd ra : Fin 32) (s : State) : Host.Outcome State Fault Refusal :=
  .next (runEng e (opExpq rd ra) s)

/-- EXPMIN.Q as an instruction of engine `e`. -/
def execExpminq (e : Fin 192) (rd ra : Fin 32) (s : State) : Host.Outcome State Fault Refusal :=
  .next (runEng e (opExpminq rd ra) s)

/-- CMP as an instruction of engine `e`. -/
def execCmp (e : Fin 192) (ra rb : Fin 32) (s : State) : Host.Outcome State Fault Refusal :=
  .next (runEng e (opCmp ra rb) s)

/-- ADDI as an instruction of engine `e`. -/
def execAddi (e : Fin 192) (rd ra : Fin 32) (imm : BitVec 16) (s : State) : Host.Outcome State Fault Refusal :=
  .next (runEng e (opAddi rd ra imm) s)

/-- ANDI as an instruction of engine `e`. -/
def execAndi (e : Fin 192) (rd ra : Fin 32) (imm : BitVec 16) (s : State) : Host.Outcome State Fault Refusal :=
  .next (runEng e (opAndi rd ra imm) s)

/-- ORI as an instruction of engine `e`. -/
def execOri (e : Fin 192) (rd ra : Fin 32) (imm : BitVec 16) (s : State) : Host.Outcome State Fault Refusal :=
  .next (runEng e (opOri rd ra imm) s)

/-- XORI as an instruction of engine `e`. -/
def execXori (e : Fin 192) (rd ra : Fin 32) (imm : BitVec 16) (s : State) : Host.Outcome State Fault Refusal :=
  .next (runEng e (opXori rd ra imm) s)

/-- SLTI as an instruction of engine `e`. -/
def execSlti (e : Fin 192) (rd ra : Fin 32) (imm : BitVec 16) (s : State) : Host.Outcome State Fault Refusal :=
  .next (runEng e (opSlti rd ra imm) s)

/-- SHI as an instruction of engine `e`. -/
def execShi (e : Fin 192) (rd ra : Fin 32) (imm : BitVec 16) (s : State) : Host.Outcome State Fault Refusal :=
  .next (runEng e (opShi rd ra imm) s)

/-- LUI as an instruction of engine `e`. -/
def execLui (e : Fin 192) (rd : Fin 32) (imm : BitVec 16) (s : State) : Host.Outcome State Fault Refusal :=
  .next (runEng e (opLui rd imm) s)

/-- MVP as an instruction of engine `e`. -/
def execMvp (e : Fin 192) (p : Fin 8) (ra : Fin 32) (s : State) : Host.Outcome State Fault Refusal :=
  .next (runEng e (opMvp p ra) s)

/-- MVG as an instruction of engine `e`. -/
def execMvg (e : Fin 192) (rd : Fin 32) (p : Fin 8) (s : State) : Host.Outcome State Fault Refusal :=
  .next (runEng e (opMvg rd p) s)

/-- MVM as an instruction of engine `e`. -/
def execMvm (e : Fin 192) (m : Fin 8) (ra : Fin 32) (s : State) : Host.Outcome State Fault Refusal :=
  .next (runEng e (opMvm m ra) s)

/-- MVMG as an instruction of engine `e`. -/
def execMvmg (e : Fin 192) (rd : Fin 32) (m : Fin 8) (s : State) : Host.Outcome State Fault Refusal :=
  .next (runEng e (opMvmg rd m) s)

/-- ADDP as an instruction of engine `e`. -/
def execAddp (e : Fin 192) (p : Fin 8) (imm : BitVec 16) (s : State) : Host.Outcome State Fault Refusal :=
  .next (runEng e (opAddp p imm) s)

/-- MVS as an instruction of engine `e`. -/
def execMvs (e : Fin 192) (idx ra : Fin 32) (s : State) : Host.Outcome State Fault Refusal :=
  .next (runEng e (opMvs idx ra) s)

/-- MVSG as an instruction of engine `e`. -/
def execMvsg (e : Fin 192) (rd idx : Fin 32) (s : State) : Host.Outcome State Fault Refusal :=
  .next (runEng e (opMvsg rd idx) s)

end Sys2Proof.Machine
end

