-- ==== Sys2Proof/Machine/EngAcc.lean ====
section
/-!
DEFINITION. The engines' MAC and ACC classes (12 R411 to R416, T12.9): operations over the accumulators,
and the meaning of each instruction.
-/
namespace Sys2Proof.Machine
open Sys2Proof

/-! ### Products -/

/-- How a product joins its accumulator. -/
inductive Join where
  | add | sub | set
deriving DecidableEq, Repr

/-- Adds, subtracts or writes `v` (R411); a written accumulator does not read its old value. -/
def joinAcc (x : Engine) (j : Join) (acd : Nat) (v : Int) (p : Bool) : Engine :=
  let a := x.acr acd
  match j with
  | .add => x.accOut acd (a.v.toInt + v) (p || a.p)
  | .sub => x.accOut acd (a.v.toInt - v) (p || a.p)
  | .set => x.accOut acd v p

/-- A signed 32 x 32 product of two g registers (R413). -/
def macWord (j : Join) (acd : Fin 4) (ra rb : Fin 32) : EngOp := alu2 ra rb fun x a b p =>
  let m := fracProduct x.frac 32 a.toInt b.toInt
  (joinAcc x j acd m.1 p).noteProducts m.2 p

/-- The four lane products of two pairs (R411, R413). -/
def macQuad (j : Join) (acd : Fin 4) (ra rb : Fin 32) : EngOp := needEven ra <| needEven rb fun x =>
  let a := x.pairVal ra
  let b := x.pairVal rb
  let p := a.2 || b.2
  let ms := (List.range 4).map fun k => fracProduct x.frac 16 (laneInt a.1.toNat k) (laneInt b.1.toNat k)
  .ok ((joinAcc x j acd (ms.map (·.1)).sum p).noteProducts (ms.any (·.2)) p)

/-- The complex product of R412; `conj` conjugates b. An odd accumulator is an undefined encoding. -/
def macComplex (j : Join) (conj : Bool) (acd : Fin 4) (ra rb : Fin 32) : EngOp := fun x =>
  if acd.val % 2 = 1 then .error 1
  else
    let a := (x.gr ra).v.toNat
    let b := (x.gr rb).v.toNat
    let p := (x.gr ra).p || (x.gr rb).p
    let m (u v : Nat) := fracProduct x.frac 16 (laneInt a u) (laneInt b v)
    let rr := m 0 0
    let ii := m 1 1
    let ri := m 0 1
    let ir := m 1 0
    let re := if conj then rr.1 + ii.1 else rr.1 - ii.1
    let im := if conj then ir.1 - ri.1 else ri.1 + ir.1
    .ok ((joinAcc (joinAcc x j acd re p) j (acd.val + 1) im p).noteProducts (rr.2 || ii.2 || ri.2 || ir.2) p)

/-- MAC.W. -/
def opMacw (acd : Fin 4) (ra rb : Fin 32) : EngOp := macWord .add acd ra rb

/-- MSU.W. -/
def opMsuw (acd : Fin 4) (ra rb : Fin 32) : EngOp := macWord .sub acd ra rb

/-- MUL.W. -/
def opMulw (acd : Fin 4) (ra rb : Fin 32) : EngOp := macWord .set acd ra rb

/-- MACU.W: unsigned, frac ignored (R413). -/
def opMacuw (acd : Fin 4) (ra rb : Fin 32) : EngOp := alu2 ra rb fun x a b p =>
  joinAcc x .add acd ((a.toNat : Int) * b.toNat) p

/-- MAC.Q. -/
def opMacq (acd : Fin 4) (ra rb : Fin 32) : EngOp := macQuad .add acd ra rb

/-- MSU.Q. -/
def opMsuq (acd : Fin 4) (ra rb : Fin 32) : EngOp := macQuad .sub acd ra rb

/-- MUL.Q. -/
def opMulq (acd : Fin 4) (ra rb : Fin 32) : EngOp := macQuad .set acd ra rb

/-- CMUL. -/
def opCmul (acd : Fin 4) (ra rb : Fin 32) : EngOp := macComplex .set false acd ra rb

/-- CMAC. -/
def opCmac (acd : Fin 4) (ra rb : Fin 32) : EngOp := macComplex .add false acd ra rb

/-- CMULJ. -/
def opCmulj (acd : Fin 4) (ra rb : Fin 32) : EngOp := macComplex .set true acd ra rb

/-- CMACJ. -/
def opCmacj (acd : Fin 4) (ra rb : Fin 32) : EngOp := macComplex .add true acd ra rb

/-! ### Accumulators -/

/-- CLRA. -/
def opClra (acd : Fin 4) : EngOp := fun x => .ok (x.setAc acd 0 false)

/-- LDA: the sign-extended pair. -/
def opLda (acd : Fin 4) (ra : Fin 32) : EngOp := needEven ra fun x =>
  .ok (x.setAc acd ((x.pairVal ra).1.signExtend 72) (x.pairVal ra).2)

/-- Writes an extracted value and notes its saturation. -/
def extOut (x : Engine) (rb : Fin 32) (v : W32) (sat p : Bool) : Engine :=
  if sat then (x.setG rb v p).noteSat p else x.setG rb v p

/-- EXT. -/
def opExt (rb : Fin 32) (acs : Fin 4) (sh : BitVec 6) : EngOp := fun x =>
  let e := x.extract acs sh.toNat 32
  .ok (extOut x rb (BitVec.ofInt 32 e.1) e.2 (x.acr acs).p)

/-- EXT.H: a 16-bit result, sign-extended. -/
def opExth (rb : Fin 32) (acs : Fin 4) (sh : BitVec 6) : EngOp := fun x =>
  let e := x.extract acs sh.toNat 16
  .ok (extOut x rb (BitVec.ofInt 32 e.1) e.2 (x.acr acs).p)

/-- EXT2: acs and acs + 1 into the two lanes; an odd acs is an undefined encoding (R424). -/
def opExt2 (rb : Fin 32) (acs : Fin 4) (sh : BitVec 6) : EngOp := fun x =>
  if acs.val % 2 = 1 then .error 1
  else
    let l := x.extract acs sh.toNat 16
    let h := x.extract (acs.val + 1) sh.toNat 16
    .ok (extOut x rb (packLanes l.1 h.1) (l.2 || h.2) ((x.acr acs).p || (x.acr (acs.val + 1)).p))

/-- EXP.A: from -8 to 63 (R416). -/
def opExpa (rb : Fin 32) (acs : Fin 4) : EngOp := fun x =>
  let a := x.acr acs
  .ok (x.setG rb (BitVec.ofInt 32 ((signBits 72 a.v.toNat : Int) - 8)) a.p)

/-- NORM.A; a shift outside -72 to 71 has no stated result (assumption log 31). -/
def opNorma (acd : Fin 4) (ra : Fin 32) : EngOp := fun x =>
  let a := x.acr acd
  let n := (x.gr ra).v
  let v := if -72 ≤ n.toInt && n.toInt ≤ 71 then normShift 72 a.v.toInt n.toInt else Config.normOut a.v n
  .ok (x.setAc acd v (a.p || (x.gr ra).p))

/-- ADDA. -/
def opAdda (acd acs : Fin 4) : EngOp := fun x => .ok (joinAcc x .add acd (x.acr acs).v.toInt (x.acr acs).p)

/-- SUBA. -/
def opSuba (acd acs : Fin 4) : EngOp := fun x => .ok (joinAcc x .sub acd (x.acr acs).v.toInt (x.acr acs).p)

/-- MVAX: part 0 low, 1 high, 2 the guard bits sign-extended; any other part is undefined (R424). -/
def opMvax (rb : Fin 32) (acs : Fin 4) (part : BitVec 6) : EngOp := fun x =>
  let a := x.acr acs
  match part.toNat with
  | 0 => .ok (x.setG rb (a.v.truncate 32) a.p)
  | 1 => .ok (x.setG rb ((a.v >>> 32).truncate 32) a.p)
  | 2 => .ok (x.setG rb (((a.v >>> 64).truncate 8).signExtend 32) a.p)
  | _ => .error 1

/-- SHA: sh signed; positive shifts left and loses the bits past bit 71, negative right, rounded by rnd
(DEDUCED, assumption log 32). -/
def opSha (acd : Fin 4) (sh : BitVec 6) : EngOp := fun x =>
  let a := x.acr acd
  let n := sh.toInt
  let v : BitVec 72 := if n ≥ 0 then a.v <<< n.toNat else BitVec.ofInt 72 (roundShift x.rnd a.v.toInt (-n).toNat)
  .ok (x.setAc acd v a.p)

/-! ### The instructions -/

/-- MAC.W as an instruction of engine `e`. -/
def execMacw (e : Fin 192) (acd : Fin 4) (ra rb : Fin 32) (s : State) : Host.Outcome State Fault Refusal :=
  .next (runEng e (opMacw acd ra rb) s)

/-- MSU.W as an instruction of engine `e`. -/
def execMsuw (e : Fin 192) (acd : Fin 4) (ra rb : Fin 32) (s : State) : Host.Outcome State Fault Refusal :=
  .next (runEng e (opMsuw acd ra rb) s)

/-- MUL.W as an instruction of engine `e`. -/
def execMulw (e : Fin 192) (acd : Fin 4) (ra rb : Fin 32) (s : State) : Host.Outcome State Fault Refusal :=
  .next (runEng e (opMulw acd ra rb) s)

/-- MACU.W as an instruction of engine `e`. -/
def execMacuw (e : Fin 192) (acd : Fin 4) (ra rb : Fin 32) (s : State) : Host.Outcome State Fault Refusal :=
  .next (runEng e (opMacuw acd ra rb) s)

/-- MAC.Q as an instruction of engine `e`. -/
def execMacq (e : Fin 192) (acd : Fin 4) (ra rb : Fin 32) (s : State) : Host.Outcome State Fault Refusal :=
  .next (runEng e (opMacq acd ra rb) s)

/-- MSU.Q as an instruction of engine `e`. -/
def execMsuq (e : Fin 192) (acd : Fin 4) (ra rb : Fin 32) (s : State) : Host.Outcome State Fault Refusal :=
  .next (runEng e (opMsuq acd ra rb) s)

/-- MUL.Q as an instruction of engine `e`. -/
def execMulq (e : Fin 192) (acd : Fin 4) (ra rb : Fin 32) (s : State) : Host.Outcome State Fault Refusal :=
  .next (runEng e (opMulq acd ra rb) s)

/-- CMUL as an instruction of engine `e`. -/
def execCmul (e : Fin 192) (acd : Fin 4) (ra rb : Fin 32) (s : State) : Host.Outcome State Fault Refusal :=
  .next (runEng e (opCmul acd ra rb) s)

/-- CMAC as an instruction of engine `e`. -/
def execCmac (e : Fin 192) (acd : Fin 4) (ra rb : Fin 32) (s : State) : Host.Outcome State Fault Refusal :=
  .next (runEng e (opCmac acd ra rb) s)

/-- CMULJ as an instruction of engine `e`. -/
def execCmulj (e : Fin 192) (acd : Fin 4) (ra rb : Fin 32) (s : State) : Host.Outcome State Fault Refusal :=
  .next (runEng e (opCmulj acd ra rb) s)

/-- CMACJ as an instruction of engine `e`. -/
def execCmacj (e : Fin 192) (acd : Fin 4) (ra rb : Fin 32) (s : State) : Host.Outcome State Fault Refusal :=
  .next (runEng e (opCmacj acd ra rb) s)

/-- CLRA as an instruction of engine `e`. -/
def execClra (e : Fin 192) (acd : Fin 4) (s : State) : Host.Outcome State Fault Refusal :=
  .next (runEng e (opClra acd) s)

/-- LDA as an instruction of engine `e`. -/
def execLda (e : Fin 192) (acd : Fin 4) (ra : Fin 32) (s : State) : Host.Outcome State Fault Refusal :=
  .next (runEng e (opLda acd ra) s)

/-- EXT as an instruction of engine `e`. -/
def execExt (e : Fin 192) (rb : Fin 32) (acs : Fin 4) (sh : BitVec 6) (s : State) : Host.Outcome State Fault Refusal :=
  .next (runEng e (opExt rb acs sh) s)

/-- EXT.H as an instruction of engine `e`. -/
def execExth (e : Fin 192) (rb : Fin 32) (acs : Fin 4) (sh : BitVec 6) (s : State) : Host.Outcome State Fault Refusal :=
  .next (runEng e (opExth rb acs sh) s)

/-- EXT2 as an instruction of engine `e`. -/
def execExt2 (e : Fin 192) (rb : Fin 32) (acs : Fin 4) (sh : BitVec 6) (s : State) : Host.Outcome State Fault Refusal :=
  .next (runEng e (opExt2 rb acs sh) s)

/-- EXP.A as an instruction of engine `e`. -/
def execExpa (e : Fin 192) (rb : Fin 32) (acs : Fin 4) (s : State) : Host.Outcome State Fault Refusal :=
  .next (runEng e (opExpa rb acs) s)

/-- NORM.A as an instruction of engine `e`. -/
def execNorma (e : Fin 192) (acd : Fin 4) (ra : Fin 32) (s : State) : Host.Outcome State Fault Refusal :=
  .next (runEng e (opNorma acd ra) s)

/-- ADDA as an instruction of engine `e`. -/
def execAdda (e : Fin 192) (acd acs : Fin 4) (s : State) : Host.Outcome State Fault Refusal :=
  .next (runEng e (opAdda acd acs) s)

/-- SUBA as an instruction of engine `e`. -/
def execSuba (e : Fin 192) (acd acs : Fin 4) (s : State) : Host.Outcome State Fault Refusal :=
  .next (runEng e (opSuba acd acs) s)

/-- MVAX as an instruction of engine `e`. -/
def execMvax (e : Fin 192) (rb : Fin 32) (acs : Fin 4) (part : BitVec 6) (s : State) : Host.Outcome State Fault Refusal :=
  .next (runEng e (opMvax rb acs part) s)

/-- SHA as an instruction of engine `e`. -/
def execSha (e : Fin 192) (acd : Fin 4) (sh : BitVec 6) (s : State) : Host.Outcome State Fault Refusal :=
  .next (runEng e (opSha acd sh) s)

end Sys2Proof.Machine
end

