-- ==== Sys2Proof/Machine/EngFlow.lean ====
section
/-!
DEFINITION. The engines' control flow, loops, system instructions, loads and stores, and the 64-bit
instruction of an access prefix with its compute word (12 T12.8, R417 to R420, R425 to R427; 11 R378 to
R382, R384).
-/
namespace Sys2Proof.Machine
open Sys2Proof

/-! ### Branches and jumps -/

/-- BR (R425): an undefined condition is ILLEGAL; a poisoned flag it tests raises POISON (11 R385). -/
def opBr (cond : Fin 16) (off : BitVec 22) : EngOp := fun x =>
  match branchCond x.sr cond with
  | none => .error 1
  | some (reads, holds) =>
    if x.fp &&& reads ≠ 0 then .error 7
    else if holds then .ok (x.branch (x.pc + (off.signExtend 32 <<< 2)))
    else .ok (x.advance 4)

/-- JMP. -/
def opJmp (off : BitVec 26) : EngOp := fun x => .ok (x.branch (x.pc + (off.signExtend 32 <<< 2)))

/-- CALL: the link goes to g31. -/
def opCall (off : BitVec 26) : EngOp := fun x =>
  .ok ((x.setG 31 (x.pc + 4) false).goto (x.pc + (off.signExtend 32 <<< 2)))

/-- JR: a poisoned target raises POISON. -/
def opJr (ra : Fin 32) : EngOp := fun x =>
  if (x.gr ra).p then .error 7 else .ok (x.goto (x.gr ra).v)

/-- CALLR: the target is read before the link is written (R422). -/
def opCallr (ra : Fin 32) : EngOp := fun x =>
  if (x.gr ra).p then .error 7 else .ok ((x.setG 31 (x.pc + 4) false).goto (x.gr ra).v)

/-- RETE: back to ENG_EPC, exc_active cleared (11 R386). -/
def opRete : EngOp := fun x => .ok ({ x with excActive := false }.goto x.epc)

/-! ### Loops (R417) -/

/-- Starts a loop at a level with a count; 0 clears the level and continues after its end. Either way the
repeat cache is emptied (R420). -/
def startLoop (level : Fin 4) (endOff : BitVec 8) (count : W32) (x : Engine) : Engine :=
  let le := x.pc + BitVec.ofNat 32 (4 * endOff.toNat)
  let x := { x with ls := SMap.put 0 x.ls level (x.pc + 4), le := SMap.put 0 x.le level le
                    lc := SMap.put 0 x.lc level count, lpact := setBit x.lpact level (count != 0), cache := [] }
  if count = 0 then { x with pc := le + 4 }.countStep else x.advance 4

/-- REP: an end of 0 is an undefined encoding, a poisoned count raises POISON. -/
def opRep (level : Fin 4) (endOff : BitVec 8) (gs : Fin 32) : EngOp := fun x =>
  if endOff = 0 then .error 1
  else if (x.gr gs).p then .error 7
  else .ok (startLoop level endOff (x.gr gs).v x)

/-- REPI. -/
def opRepi (level : Fin 4) (endOff : BitVec 8) (count : BitVec 16) : EngOp := fun x =>
  if endOff = 0 then .error 1 else .ok (startLoop level endOff (count.zeroExtend 32) x)

/-! ### WAIT -/

/-- WAIT ends at once where an enabled interrupt is pending; otherwise the engine waits, its next
instruction the one after it. -/
def opWait : EngOp := fun x =>
  let y := x.advance 4
  if x.steps ≠ 0 then .ok { y with steps := 0, haltAsked := some 3 }
  else if x.ie &&& x.ip ≠ 0 then .ok y else .ok { y with state := .waiting }

/-! ### The compute word of a 64-bit instruction (R426) -/

/-- The operation of major 0x00 (T12.9). Fields that an operation does not use are reserved 0 (R424): a
register no operation names, and the shift-amount field [10:6]. -/
def aluWord (w : ComputeWord) : Option EngOp :=
  let d := w.rd; let a := w.ra; let b := w.rb
  let one (op : EngOp) : Option EngOp := if b = 0 then some op else none
  if w.sh ≠ 0 then none
  else match w.func.toNat with
    | 0x00 => some (opAdd d a b) | 0x01 => some (opSub d a b) | 0x02 => some (opAnd d a b)
    | 0x03 => some (opOr d a b) | 0x04 => some (opXor d a b) | 0x05 => some (opShl d a b)
    | 0x06 => some (opShr d a b) | 0x07 => some (opAsr d a b) | 0x08 => some (opSlt d a b)
    | 0x09 => some (opSltu d a b) | 0x0A => some (opMin d a b) | 0x0B => some (opMax d a b)
    | 0x0C => one (opAbs d a) | 0x0D => one (opNeg d a) | 0x0E => some (opAdds d a b)
    | 0x0F => some (opSubs d a b) | 0x10 => some (opMul d a b) | 0x11 => some (opMulh d a b)
    | 0x12 => some (opMulhu d a b) | 0x13 => if d = 0 then some (opCmp a b) else none
    | 0x18 => one (opExp d a) | 0x19 => one (opExpmin d a) | 0x1A => some (opNorm d a b)
    | 0x20 => some (opAdd2h d a b) | 0x21 => some (opSub2h d a b) | 0x22 => some (opHadd2h d a b)
    | 0x23 => some (opHsub2h d a b) | 0x26 => some (opBf2h d a b) | 0x27 => some (opHbf2h d a b)
    | 0x28 => one (opExpq d a) | 0x29 => one (opExpminq d a)
    | _ => none

/-- The operation of major 0x1C. -/
def macWordOp (w : ComputeWord) : Option EngOp :=
  if w.acs ≠ 0 || w.sh ≠ 0 then none
  else match w.func.toNat with
  | 0 => some (opMacw w.acd w.ra w.rb) | 1 => some (opMsuw w.acd w.ra w.rb) | 2 => some (opMulw w.acd w.ra w.rb)
  | 3 => some (opMacuw w.acd w.ra w.rb) | 4 => some (opMacq w.acd w.ra w.rb) | 5 => some (opMsuq w.acd w.ra w.rb)
  | 6 => some (opMulq w.acd w.ra w.rb) | 8 => some (opCmul w.acd w.ra w.rb) | 9 => some (opCmac w.acd w.ra w.rb)
  | 10 => some (opCmulj w.acd w.ra w.rb) | 11 => some (opCmacj w.acd w.ra w.rb)
  | _ => none

/-- The operation of major 0x1D, by the fields each one uses; the others are 0 (R424). -/
def accWordOp (w : ComputeWord) : Option EngOp :=
  let use (acd acs sh ra rb : Bool) (op : EngOp) : Option EngOp :=
    if (acd || w.acd = 0) && (acs || w.acs = 0) && (sh || w.sh = 0) && (ra || w.ra = 0) && (rb || w.rb = 0) then some op
    else none
  match w.func.toNat with
  | 0 => use true false false false false (opClra w.acd)
  | 1 => use true false false true false (opLda w.acd w.ra)
  | 2 => use false true true false true (opExt w.rb w.acs w.sh)
  | 3 => use false true true false true (opExth w.rb w.acs w.sh)
  | 4 => use false true true false true (opExt2 w.rb w.acs w.sh)
  | 5 => use false true false false true (opExpa w.rb w.acs)
  | 6 => use true false false true false (opNorma w.acd w.ra)
  | 7 => use true true false false false (opAdda w.acd w.acs)
  | 8 => use true true false false false (opSuba w.acd w.acs)
  | 9 => use false true true false true (opMvax w.rb w.acs w.sh)
  | 10 => use true false true false false (opSha w.acd w.sh)
  | _ => none

/-- The operation of a compute word: majors 0x00 to 0x07, 0x1C, 0x1D, or SYS NOP; any other is an
undefined encoding. -/
def ComputeWord.op (w : ComputeWord) : EngOp :=
  let o : Option EngOp := match w.major.toNat with
    | 0x00 => aluWord w
    | 0x01 => some (opAddi w.rd w.ra w.imm) | 0x02 => some (opAndi w.rd w.ra w.imm)
    | 0x03 => some (opOri w.rd w.ra w.imm) | 0x04 => some (opXori w.rd w.ra w.imm)
    | 0x05 => some (opSlti w.rd w.ra w.imm) | 0x06 => if w.ra = 0 then some (opLui w.rd w.imm) else none
    | 0x07 => some (opShi w.rd w.ra w.imm)
    | 0x1C => macWordOp w
    | 0x1D => accWordOp w
    | 0x1E => if w.func = 0 && w.rd = 0 && w.ra = 0 && w.rb = 0 && w.sh = 0 then some .ok else none
    | _ => none
  match o with
  | none => fun _ => .error 1
  | some op => op

/-! ### Loads, stores and the 64-bit instruction -/

/-- The operation of a memory instruction besides its accesses, and its length in bytes. -/
def MemInstr.parts : MemInstr → EngOp × Nat
  | .ld _ _ => (.ok, 4)
  | .pair _ _ _ _ w => (ComputeWord.op w, 8)

/-- Runs a memory instruction with the answers its global loads have had so far. -/
def runInstr (e : Nat) (i : MemInstr) (got : List (List Byte × Bool)) (s : State) : State :=
  runMem e i (i.accesses (s.eng e)) i.parts.1 i.parts.2 got s

/-- A memory instruction issues. -/
def issueMem (e : Fin 192) (i : MemInstr) (s : State) : State :=
  match preIssue e s with
  | .error s => s
  | .ok () => runInstr e i [] s

/-- LD. -/
def execLd (e : Fin 192) (rd : Fin 32) (m : MemForm) (s : State) : Host.Outcome State Fault Refusal :=
  .next (issueMem e (.ld rd m) s)

/-- ST: sx belongs to loads and has no meaning here. -/
def execSt (e : Fin 192) (rd : Fin 32) (m : MemForm) (s : State) : Host.Outcome State Fault Refusal :=
  .next (match preIssue e s with
    | .error s => s
    | .ok () => runStore e rd m s)

/-- The 64-bit instruction (R426, R427). -/
def execAccessPrefixPair (e : Fin 192) (s1 s2 : Slot) (size : Fin 4) (sx : Bool) (w : ComputeWord) (s : State) :
    Host.Outcome State Fault Refusal :=
  .next (issueMem e (.pair s1 s2 size sx w) s)

/-- The response of the load under way (R380): OK lets the instruction take effect with what it returned;
any other status raises LOAD_ERROR and leaves the registers as they are. -/
def loadResponse (e : Fin 192) (status : BitVec 4) (data : List Byte) (poison : Bool) (s : State) : State :=
  match (s.eng e).gload with
  | none => s
  | some g =>
    let s := s.setEng e fun x => { x with gload := none }
    let s := if status = 0 then runInstr e g.instr (g.got ++ [(data, poison)]) s
      else takeException e 5 status (s.setEng e fun x => { x with faultAddr := g.addr })
    settle e s

/-- GLOBAL_LOAD_RESPONSE. -/
def execGlobalLoadResponse (e : Fin 192) (status : BitVec 4) (data : List Byte) (poison : Bool) (s : State) :
    Host.Outcome State Fault Refusal :=
  .next (loadResponse e status data poison s)

/-! ### The instructions of this file -/

/-- BR. -/
def execBr (e : Fin 192) (cond : Fin 16) (off : BitVec 22) (s : State) : Host.Outcome State Fault Refusal :=
  .next (runFlow e (opBr cond off) s)

/-- JMP. -/
def execJmp (e : Fin 192) (off : BitVec 26) (s : State) : Host.Outcome State Fault Refusal :=
  .next (runFlow e (opJmp off) s)

/-- CALL. -/
def execCall (e : Fin 192) (off : BitVec 26) (s : State) : Host.Outcome State Fault Refusal :=
  .next (runFlow e (opCall off) s)

/-- JR. -/
def execJr (e : Fin 192) (ra : Fin 32) (s : State) : Host.Outcome State Fault Refusal :=
  .next (runFlow e (opJr ra) s)

/-- CALLR. -/
def execCallr (e : Fin 192) (ra : Fin 32) (s : State) : Host.Outcome State Fault Refusal :=
  .next (runFlow e (opCallr ra) s)

/-- RETE. -/
def execRete (e : Fin 192) (s : State) : Host.Outcome State Fault Refusal := .next (runFlow e opRete s)

/-- REP. -/
def execRep (e : Fin 192) (level : Fin 4) (endOff : BitVec 8) (gs : Fin 32) (s : State) :
    Host.Outcome State Fault Refusal :=
  .next (runFlow e (opRep level endOff gs) s)

/-- REPI. -/
def execRepi (e : Fin 192) (level : Fin 4) (endOff : BitVec 8) (count : BitVec 16) (s : State) :
    Host.Outcome State Fault Refusal :=
  .next (runFlow e (opRepi level endOff count) s)

/-- NOP. -/
def execNop (e : Fin 192) (s : State) : Host.Outcome State Fault Refusal := .next (runEng e .ok s)

/-- WAIT. -/
def execWait (e : Fin 192) (s : State) : Host.Outcome State Fault Refusal := .next (runFlow e opWait s)

/-- FENCE.SL (11 R384). -/
def execFenceSl (e : Fin 192) (s : State) : Host.Outcome State Fault Refusal :=
  .next (runFence e (fun _ => true) id s)

/-- FENCE.DMA: also waits for the DMA channel. -/
def execFenceDma (e : Fin 192) (s : State) : Host.Outcome State Fault Refusal :=
  .next (runFence e (fun x => !x.dma.busy) id s)

/-- FENCE.I: also discards the repeat cache (R420). -/
def execFenceI (e : Fin 192) (s : State) : Host.Outcome State Fault Refusal :=
  .next (runFence e (fun _ => true) (fun x => { x with cache := [] }) s)

end Sys2Proof.Machine
end

