-- ==== Sys2Proof/Machine/EngRows.lean ====
section
/-!
DEFINITION. The engines' own events (11): window accesses, the store buffer, exception entry, the timer, the
DMA channel and the mailbox.
-/
namespace Sys2Proof.Machine
open Sys2Proof

/-! ### The window (R377) -/

/-- ENGINE_WINDOW_ACCESS: while the engine's clock is stopped its endpoint is paused and the request waits. -/
def execEngineWindowAccess (r : GReq) (s : State) : Host.Outcome State Fault Refusal :=
  .next (if (s.eng (windowOf r.addr.toNat).1).holdStopped then s
    else
      let (a, s) := engWindow r s
      answer r a.1 a.2.1 a.2.2 s)

/-! ### The store buffer (R381, R387) -/

/-- The head of the buffer performs locally, or is sent with those behind it that go to its endpoint. -/
def storeHead (e : Nat) (s : State) : State :=
  match (s.eng e).sb with
  | [] => s
  | b :: rest =>
    if b.isGlobal then sendStores e s
    else settle e (performLocal e b (s.setEng e fun x => { x with sb := rest }))

/-- STORE_PERFORM. -/
def execStorePerform (e : Fin 192) (s : State) : Host.Outcome State Fault Refusal := .next (storeHead e s)

/-- A response that is not OK sets store_err_pending with its address and status; a further one while it is
pending sets store_err_overrun and is logged (R387). -/
def noteStoreError (e : Nat) (b : SbEntry) (status : BitVec 4) (s : State) : State :=
  if (s.eng e).storeErr then
    logEvent 0x8005 [e, b.addr, status.toNat] (s.setEng e fun x => { x with storeErrOverrun := true })
  else
    s.setEng e fun x =>
      { x with storeErr := true, storeErrStatus := status, faultAddr := BitVec.ofNat 48 b.addr }

/-- The write response of the buffer's head arrives and frees its entry. -/
def storeAnswered (e : Nat) (status : BitVec 4) (s : State) : State :=
  match (s.eng e).sb with
  | [] => s
  | b :: rest =>
    if !b.sent then s
    else
      let s := s.setEng e fun x => { x with sb := rest }
      settle e (if status = 0 then s else noteStoreError e b status s)

/-- STORE_RESPONSE. -/
def execStoreResponse (e : Fin 192) (status : BitVec 4) (s : State) : Host.Outcome State Fault Refusal :=
  .next (storeAnswered e status s)

/-! ### Exceptions and interrupts (R386) -/

/-- The lowest code of the enabled pending interrupts. -/
def Engine.nextIrq (x : Engine) : Option Nat :=
  ((List.range 4).find? fun i => (x.ie &&& x.ip).getLsbD i).map (16 + ·)

/-- Interrupts are taken while gie is 1 and exc_active is 0, and not during a step that holds them off (16
R550). -/
def Engine.takesIrq (x : Engine) : Bool := x.gie && !x.excActive && !(x.stepNoInt && x.steps != 0)

/-- EXCEPTION_ENTRY: `code` is what the engine found between two instructions: a fault it meets in fetching
or decoding the next instruction, STORE_ERROR while an error is pending, or the interrupt that is next in
turn (assumption log 33). A code that Table 11.4 does not list, and an interrupt that may not be taken,
change nothing. -/
def exceptionBetween (e : Nat) (code : Nat) (s : State) : State :=
  let x := s.eng e
  if !s.executes e then s
  else if code = 6 then (if x.storeErr then takeException e 6 x.storeErrStatus s else s)
  else if 1 ≤ code && code ≤ 8 then takeException e code 0 s
  else if x.takesIrq && x.nextIrq = some code then takeException e code 0 s
  else s

/-- EXCEPTION_ENTRY. -/
def execExceptionEntry (e : Fin 192) (code : BitVec 8) (s : State) : Host.Outcome State Fault Refusal :=
  .next (exceptionBetween e code.toNat s)

/-! ### The timer (R389, R390) -/

/-- ENG_TIMER has reached ENG_TIMER_CMP: TIMER becomes pending; the counter has cleared if reload is 1, and counts on. -/
def timerHit (e : Nat) (s : State) : State :=
  if (s.eng e).counting then
    let s := s.passTo (s.eng e).matchTime
    s.setEng e fun x => (x.timerTo s.time).pend 16
  else s

/-- TIMER_MATCH. -/
def execTimerMatch (e : Fin 192) (s : State) : Host.Outcome State Fault Refusal :=
  .next (timerHit e s)

/-! ### The DMA channel (R391, R392) -/

/-- DMA_GO: the channel starts once every earlier store has performed. -/
def execDmaGo (e : Fin 192) (s : State) : Host.Outcome State Fault Refusal :=
  .next (let s := drainLocal e sbSize s
    if (s.eng e).sb.isEmpty then s.setEng e Engine.dmaStart else s)

/-- DMA_ABORT. -/
def execDmaAbort (e : Fin 192) (s : State) : Host.Outcome State Fault Refusal := .next (s.setEng e Engine.dmaStop)

/-- One packet has moved: the channel ends with its last packet, or with the last one in flight after an
abort. -/
def Engine.dmaMoved (x : Engine) (n : Nat) (poisoned : Bool) : Engine :=
  let d := x.dma
  let left := d.remaining - BitVec.ofNat 18 n
  let abort := d.aborting.map (· - 1)
  let x := { x with dma := { d with remaining := left, moved := d.moved + n, poisoned := d.poisoned || poisoned
                                    aborting := abort, held := d.held.map (· - 1) } }
  if left = 0 || abort = some 0 then x.dmaEnd false 0 else x

/-- The response of the channel's next packet (packets complete in order: assumption log 34): a status other
than OK stops the channel, otherwise its bytes move, with their poison. -/
def dmaAnswered (e : Nat) (status : BitVec 4) (data : List Byte) (poison : BitVec 4) (s : State) : State :=
  let x := s.eng e
  if !x.dma.busy || x.holdStopped || x.dma.held = some 0 then s
  else if status ≠ 0 then s.setEng e fun x => x.dmaEnd true status
  else
    let n := x.dmaPacket
    let g := x.dmaGlobal.toNat + x.dma.moved
    let a := x.dmaLocal.toNat + x.dma.moved
    if x.dmaDir then
      let (bs, s) := engRead e a n s
      s.setEng e fun x => x.dmaMoved n (bs.any (·.2))
    else
      let bs := (List.range n).map fun i => (nth 0 data i, poison.getLsbD ((g + i) % 256 / 64))
      (engWrite e a bs s).setEng e fun x => x.dmaMoved n (bs.any (·.2))

/-- DMA_PACKET_RESPONSE. -/
def execDmaPacketResponse (e : Fin 192) (status : BitVec 4) (data : List Byte) (poison : BitVec 4) (s : State) :
    Host.Outcome State Fault Refusal :=
  .next (dmaAnswered e status data poison s)

/-! ### Registers that act (R386, R393) -/

/-- ENG_IRQ_RAISE. -/
def execEngIrqRaise (e : Fin 192) (value : W32) (s : State) : Host.Outcome State Fault Refusal :=
  .next (writeEngReg e 0x20 value s)

/-- ENG_MB_DOORBELL: dropped while req_busy is 1. -/
def execEngMbDoorbell (e : Fin 192) (value : W32) (s : State) : Host.Outcome State Fault Refusal :=
  .next (writeEngReg e 0x110 value s)

/-- ENG_MB_ACK. -/
def execEngMbAck (e : Fin 192) (value : W32) (s : State) : Host.Outcome State Fault Refusal :=
  .next (writeEngReg e 0x118 value s)

end Sys2Proof.Machine
end

