-- ==== Sys2Proof/Machine/EngCmds.lean ====
section
/-!
DEFINITION. The ENG commands (11 R399 to R403), the run control of engines (16 R548 to R552) and the freeze options
(16 R553, R557), one definition per row.
-/
namespace Sys2Proof.Machine
open Sys2Proof

/-! ### ENG_LOAD (R400) -/

/-- The engines a command's 24-byte mask names. -/
def maskOf (ps : List Byte) : List Nat := maskEngines (fieldAt ps 0 24)

/-- Every engine of the mask is STOPPED or FAULTED. -/
def State.loadable (s : State) (ps : List Byte) : Bool :=
  (maskOf ps).all fun e => (s.eng e).state == .stopped || (s.eng e).state == .faulted

/-- The source address and length of image `k`: P, U, V. -/
def imageOf (ps : List Byte) (k : Nat) : Nat × Nat := (fieldAt ps (24 + 8 * k) 8, fieldAt ps (48 + 4 * k) 4)

/-- The lengths of Table 11.12. -/
def loadParam (ps : List Byte) : Bool :=
  zeroAt ps 60 4 && (List.range 3).all fun k => (imageOf ps k).2 % 4 == 0 && (imageOf ps k).2 ≤ 131072

/-- ENG_LOAD: accepted; BACKGROUND_COMPLETION loads. -/
def cardEngLoad : Card where
  opcode := 0x0B00
  critical := true
  cls := .operation
  background := fun _ => true
  lengthOk := fun c => c.paramLength == 64
  state := fun c s => needs (s.loadable c.params)
  param := fun c _ => inRange (loadParam c.params)
  run := fun c _ s =>
    (.accepted, updEntry c.port c.source c.tag (fun x => { x with work := .engLoad c.params }) s)

/-- ENG_LOAD. -/
def execEngLoad (c : Cmd) (s : State) : Host.Outcome State Fault Refusal := .next (spatu cardEngLoad c s)

/-- Reads one image as the steward: P under X, U and V under R (14 R481). -/
def readImage (ps : List Byte) (k : Nat) (s : State) : BitVec 4 × List (Byte × Bool) × State :=
  let (a, n) := imageOf ps k
  if n = 0 then (0, [], s) else busRead stewardEp 0 (if k = 0 then 2 else 0) a n s

/-- The images are written to every engine of the mask and each one is logged. -/
def loadEngines (ps : List Byte) (p u v : List (Byte × Bool)) (s : State) : State :=
  (maskOf ps).foldl (fun s e =>
    logEvent 0x8010 [e, p.length, u.length, v.length]
      (engWrite e 0x20000 v (engWrite e 0 u (engWrite e 0x40000 p s)))) s

/-- The end of an ENG_LOAD: every source is read, then the engines are loaded (assumption log 54); a read error ends
it with nothing loaded. -/
def engLoadEnds (ps : List Byte) (s : State) : BitVec 16 × List Byte × State :=
  let (st, p, s) := readImage ps 0 s
  if st ≠ 0 then (readError st, maskData 0, s)
  else
    let (st, u, s) := readImage ps 1 s
    if st ≠ 0 then (readError st, maskData 0, s)
    else
      let (st, v, s) := readImage ps 2 s
      if st ≠ 0 then (readError st, maskData 0, s)
      else
        (if (p ++ u ++ v).any (·.2) then Status.poisonedData else Status.ok, maskData (fieldAt ps 0 24 % 2 ^ 192),
          loadEngines ps p u v s)

/-! ### ENG_START, ENG_STOP, ENG_STATUS (R401 to R403) -/

/-- ENG_START: not in Hold (14 R466). -/
def cardEngStart : Card where
  opcode := 0x0B01
  critical := true
  cls := .operation
  holdOk := fun _ _ => false
  lengthOk := fun c => c.paramLength == 32
  state := fun c s => needs (s.loadable c.params)
  param := fun c _ =>
    let ps := c.params
    inRange (fieldAt ps 24 4 ≤ 0x1FFFF && 1 ≤ fieldAt ps 28 1 && fieldAt ps 28 1 ≤ 16 && fieldAt ps 29 1 ≤ 1 && zeroAt ps 30 2)
  run := fun c _ s =>
    let ps := c.params
    let pc : W32 := BitVec.ofNat 32 (fieldAt ps 24 4)
    answerOk (maskData (fieldAt ps 0 24))
      ((maskOf ps).foldl (fun s e => s.setEng e (Engine.clocked s.time fun x => x.start pc (fieldAt ps 28 1) (fieldAt ps 29 1 == 1))) s)

/-- ENG_START. -/
def execEngStart (c : Cmd) (s : State) : Host.Outcome State Fault Refusal := .next (spatu cardEngStart c s)

/-- The engines that an ENG_STOP names are asked to stop. -/
def stopAll (ps : List Byte) (s : State) : State :=
  syncFreeze ((maskOf ps).foldl (fun s e => stopEngine (fieldAt ps 24 1 == 1) e s) s)

/-- ENG_STOP: it answers when every engine of the mask is STOPPED; its card names no ACCEPTED (R402). -/
def cardEngStop : Card where
  opcode := 0x0B02
  critical := true
  cls := .operation
  lengthOk := fun c => c.paramLength == 32
  state := fun c s => needs !(s.startsLine (stopAll c.params s))
  param := fun c _ => inRange (fieldAt c.params 24 1 ≤ 1 && zeroAt c.params 25 7)
  run := fun c _ s =>
    let ps := c.params
    let m : BitVec 192 := BitVec.ofNat 192 (fieldAt ps 0 24)
    let s := stopAll ps s
    if (maskOf ps).all fun e => (s.eng e).state == .stopped then answerOk s.stoppedData s else (.awaits (.engStop m), s)

/-- ENG_STOP. -/
def execEngStop (c : Cmd) (s : State) : Host.Outcome State Fault Refusal := .next (spatu cardEngStop c s)

/-- ENG_STATUS. -/
def cardEngStatus : Card where
  opcode := 0x0B03
  critical := false
  cls := .identity
  lengthOk := fun c => c.paramLength == 4
  param := fun c _ =>
    let (f, n) := (fieldAt c.params 0 1, fieldAt c.params 1 1)
    inRange (f ≤ 191 && 1 ≤ n && n ≤ 192 && f + n ≤ 192 && zeroAt c.params 2 2)
  run := fun c _ s =>
    let (f, n) := (fieldAt c.params 0 1, fieldAt c.params 1 1)
    answerOk ((List.range n).map fun i => (s.eng (f + i)).record).flatten s

/-- ENG_STATUS. -/
def execEngStatus (c : Cmd) (s : State) : Host.Outcome State Fault Refusal := .next (spatu cardEngStatus c s)

/-- The ENG_STOP that awaits an engine's STOPPED ends with TIMEOUT. -/
def failStops (e : Nat) (s : State) : State :=
  match s.intake.busy with
  | none => s
  | some h =>
    match h.work with
    | .engStop m => if m.getLsbD e then finishHeld Status.timeout s.stoppedData s else s
    | _ => s

/-- An engine has not stopped within 1.5 ms (R402): it is WEDGED; under Hold its clock stops (15 R510). -/
def stopTimeout (e : Nat) (s : State) : State :=
  let x := s.eng e
  let hold := s.power.mode == .hold && x.live && !x.holdStopped
  let s :=
    if x.stopAsked.isSome || hold then
      logEvent 0x8002 [e, x.pc.toNat, x.sb.length]
        (s.setEng e (Engine.clocked s.time fun x =>
          { x with state := .wedged, stopAsked := none, haltAsked := none, holdStopped := x.holdStopped || hold }))
    else s
  if (s.eng e).state == .wedged then syncFreeze (failStops e s) else s

/-- ENGINE_STOP_TIMEOUT. -/
def execEngineStopTimeout (e : Fin 192) (s : State) : Host.Outcome State Fault Refusal := .next (stopTimeout e s)

/-! ### Halts (16 R549, R551) -/

/-- The engine asked to halt is at an instruction boundary with its global load done: its store buffer drains and
it is HALTED; up to 8 packets of its DMA channel are in flight (assumption log 34). -/
def haltEngine (e : Nat) (cause : BitVec 2) (s : State) : State :=
  let x := s.eng e
  if x.haltAsked ≠ some cause || !x.live || x.gload.isSome then s
  else
    let s := drainLocal e sbSize s
    if !(s.eng e).sb.isEmpty then s
    else
      let s := s.setEng e <| Engine.clocked s.time fun x =>
        let y := x.dmaStop
        let inFlight := if x.dma.busy then y.dma.aborting else none
        { x with state := .halted, wasWaiting := x.state == .waiting, haltAsked := none, haltedBy := cause
                 dma := { x.dma with held := inFlight } }
      syncFreeze (reportEngines (logEvent 0xA010 [e, cause.toNat, x.pc.toNat] s))

/-- ENGINE_HALT. -/
def execEngineHalt (e : Fin 192) (cause : BitVec 2) (s : State) : Host.Outcome State Fault Refusal :=
  .next (keepEdges (haltEngine e cause) s)

/-- The halt request of engine `e`, which halts by a comparator, reaches the others of the halt group. -/
def haltGroup (e : Nat) (s : State) : State :=
  let x := s.eng e
  if s.dbg.xhalt.getLsbD e && (x.haltAsked == some 1 || (x.state == .halted && x.haltedBy == 1)) then
    ((maskEngines s.dbg.xhalt.toNat).filter (· != e)).foldl (fun s o =>
      if (s.eng o).live && (s.eng o).haltAsked.isNone then
        s.setEng o fun y => { y with haltAsked := some 2, steps := 0 }
      else s) s
  else s

/-- HALT_GROUP_REQUEST. -/
def execHaltGroupRequest (e : Fin 192) (s : State) : Host.Outcome State Fault Refusal := .next (haltGroup e s)

/-! ### DBG_ENG_CONTROL (16 R548, R550, R552, R558) -/

/-- The op of a DBG_ENG_CONTROL. -/
def controlOp (ps : List Byte) : Nat := fieldAt ps 24 1

/-- The engines are in a state the op accepts. -/
def State.controllable (s : State) (ps : List Byte) : Bool :=
  (maskOf ps).all fun e => (s.eng e).state == .halted || (controlOp ps == 0 && (s.eng e).live)

/-- One engine is asked to halt, steps or resumes. -/
def Engine.control (op count : Nat) (noInt : Bool) (x : Engine) : Engine :=
  if op = 0 then
    (if x.state == .halted then x else { x with haltAsked := some (x.haltAsked.getD 0), steps := 0 })
  else if op = 1 then
    { x with state := .running, wasWaiting := false, steps := count, stepNoInt := noInt, dma := { x.dma with held := none } }
  else
    let y := { x with state := if x.wasWaiting then .waiting else .running, wasWaiting := false, steps := 0, dma := { x.dma with held := none } }
    y.wake

/-- The engines that a DBG_ENG_CONTROL names are asked to halt, step or resume. -/
def controlAll (ps : List Byte) (s : State) : State :=
  let f := Engine.control (controlOp ps) (fieldAt ps 26 2) (fieldAt ps 25 1 == 1)
  syncFreeze ((maskOf ps).foldl (fun s e => s.setEng e (Engine.clocked s.time f)) s)

/-- DBG_ENG_CONTROL: a resume is done at once; a halt or a step when every engine of the mask is HALTED. -/
def cardDbgEngControl : Card where
  opcode := 0x0511
  critical := true
  cls := .debug
  holdOk := fun c _ => controlOp c.params == 0
  background := fun c => decide (controlOp c.params < 2)
  lengthOk := fun c => c.paramLength == 32
  state := fun c s => if controlOp c.params > 2 then none
    else needs (s.controllable c.params && !s.startsLine (controlAll c.params s))
  param := fun c _ =>
    let ps := c.params
    inRange (controlOp ps ≤ 2 && fieldAt ps 25 1 ≤ 1 && (controlOp ps != 1 || fieldAt ps 26 2 != 0) && zeroAt ps 28 4)
  run := fun c _ s =>
    let ps := c.params
    let op := controlOp ps
    let s := controlAll ps s
    if op = 2 then answerOk s.haltedData s
    else
      let m : BitVec 192 := BitVec.ofNat 192 (fieldAt ps 0 24)
      (.held true, reportEngines (updEntry c.port c.source c.tag (fun x => { x with work := .engHalt m }) s))

/-- DBG_ENG_CONTROL. -/
def execDbgEngControl (c : Cmd) (s : State) : Host.Outcome State Fault Refusal := .next (spatu cardDbgEngControl c s)

/-! ### DBG_FREEZE_SET (16 R553, R557) -/

/-- The freeze options and the halt group that a DBG_FREEZE_SET writes. -/
def setFreeze (ps : List Byte) (s : State) : State :=
  syncFreeze { s with dbg := { s.dbg with
    freeze := BitVec.ofNat 7 (fieldAt ps 0 1), xhalt := BitVec.ofNat 192 (fieldAt ps 4 24) } }

/-- DBG_FREEZE_SET. -/
def cardDbgFreezeSet : Card where
  opcode := 0x0510
  critical := true
  cls := .debug
  lengthOk := fun c => c.paramLength == 28
  state := fun c s => needs !(s.startsLine (setFreeze c.params s))
  param := fun c _ => inRange (fieldAt c.params 0 1 &&& 0x82 == 0 && zeroAt c.params 1 3)
  run := fun c _ s =>
    let u := fieldAt c.params 0 1
    answerOk (leBytes 4 u) (logEvent 0xA011 [u, c.port.val] (setFreeze c.params s))

/-- DBG_FREEZE_SET. -/
def execDbgFreezeSet (c : Cmd) (s : State) : Host.Outcome State Fault Refusal := .next (spatu cardDbgFreezeSet c s)

end Sys2Proof.Machine
end

