-- ==== Sys2Proof/Machine/EvrRows.lean ====
section
/-!
DEFINITION. The event recorder's own events (17): programming, page erasure and exchange, rate summaries and
the report of lost records.
-/
namespace Sys2Proof.Machine
open Sys2Proof

/-- RECORD_PROGRAM (R561, R564, R569). -/
def execRecordProgram (pulses : Nat) (verified : Bool) (s : State) : Host.Outcome State Fault Refusal :=
  .next { s with evr := s.evr.program s.time (min pulses 16) verified }

/-- The next pending record does not fit on the newest page: the oldest is erased and becomes the newest. -/
def Evr.eraseDue (e : Evr) : Bool :=
  !e.readonly && e.clearing.isNone && match e.pending with | [] => false | r :: _ => !e.fits r.size

/-- PAGE_ERASE (R563). -/
def execPageErase (s : State) : Host.Outcome State Fault Refusal :=
  .next (if s.evr.eraseDue then { s with evr := s.evr.rollPage s.time } else s)

/-- PAGE_EXCHANGED (R569). -/
def execPageExchanged (s : State) : Host.Outcome State Fault Refusal :=
  .next (if s.evr.readonly then s else { s with evr := s.evr.exchange s.time })

/-- RATE_SUMMARY (R567): the bucket has refilled, or 10 s have passed since the first suppression. -/
def execRateSummary (code : BitVec 16) (s : State) : Host.Outcome State Fault Refusal :=
  .next (let b := SMap.look {} s.evr.buckets code.toNat
    if b.suppressed = 0 then s
    else
      let s := s.passTo b.dueAt
      { s with evr := s.evr.summarise s.time code.toNat })

/-- RECORDS_LOST (R564): the buffer has room again, and the records lost since it filled are reported. -/
def execRecordsLost (s : State) : Host.Outcome State Fault Refusal :=
  .next (if s.evr.lostRun = 0 || s.evr.pendingBytes + 24 > 16384 then s
    else { s with evr := ({ s.evr with lostRun := 0 } : Evr).note s.time 0x9007 [s.evr.lostRun] })

end Sys2Proof.Machine
end

