-- ==== Sys2Proof/Machine/EvrCmds.lean ====
section
/-!
DEFINITION. The event recorder's commands and the return of a part (17 R565 to R579), one definition per row.
-/
namespace Sys2Proof.Machine
open Sys2Proof

/-! ### EVR commands -/

/-- EVR_READ (R565). -/
def cardEvrRead : Card where
  opcode := 0x0600
  critical := false
  cls := .identity
  lengthOk c := c.paramLength == 16
  param c s :=
    let most := fieldAt c.params 4 4
    inRange (decide (16 ≤ most) && decide (most ≤ 65504) && most % 8 == 0 && zeroAt c.params 12 4 &&
      !seqBefore (s.evr.head + 1) (BitVec.ofNat 32 (fieldAt c.params 0 4)))
  run c _ s :=
    answerOk (s.evr.read (BitVec.ofNat 32 (fieldAt c.params 0 4)) (fieldAt c.params 4 4)
      (BitVec.ofNat 16 (fieldAt c.params 8 2)) (BitVec.ofNat 16 (fieldAt c.params 10 2))) s

def execEvrRead (c : Cmd) (s : State) : Host.Outcome State Fault Refusal := .next (spatu cardEvrRead c s)

/-- EVR_HEAD. -/
def cardEvrHead : Card where
  opcode := 0x0601
  critical := false
  cls := .identity
  lengthOk c := c.paramLength == 0
  run _ _ s := answerOk (([0x00, 0x04, 0x08, 0x0C] : List Nat).flatMap fun o => leBytes 4 (s.readEvr o)) s

def execEvrHead (c : Cmd) (s : State) : Host.Outcome State Fault Refusal := .next (spatu cardEvrHead c s)

/-- EVR_CLEAR (R568): the old records leave the log at once; the rest ends with BACKGROUND_COMPLETION. -/
def cardEvrClear : Card where
  opcode := 0x0602
  critical := true
  cls := .security
  background _ := true
  lengthOk c := c.paramLength == 0
  state _ s := needs s.evr.clearing.isNone
  run c _ s :=
    let slot : Byte := if c.trailer then BitVec.ofNat 8 c.keySlot else 0xFF
    (.accepted, updEntry c.port c.source c.tag
      (fun e => { e with work := .evrClear (BitVec.ofNat 8 c.port.val) c.source slot }) { s with evr := s.evr.startClear })

def execEvrClear (c : Cmd) (s : State) : Host.Outcome State Fault Refusal := .next (spatu cardEvrClear c s)

/-- The clear is done: LOG_CLEARED is written, and its sequence number completes the command. -/
def runClear (e : Completion) (port : Byte) (source : BitVec 16) (slot : Byte) (s : State) : State :=
  let seq := s.evr.nextSeq
  finishEntry e.port e.source e.tag Status.ok (leBytes 4 seq.toNat)
    { s with evr := s.evr.endClear s.time port.toNat source.toNat slot.toNat }

/-- A limit is set for one code, or every default restored (R566). -/
def setRate (code rate burst : Nat) (s : State) : State :=
  if code = 0xFFFF then
    let codes := s.evr.overrides.map (·.1)
    { s with evr := codes.foldl (fun e k => e.relimit s.time k) { s.evr with overrides := [] } }
  else
    { s with evr := { s.evr with overrides := SMap.put (0, 0) s.evr.overrides code (rate, burst) }.relimit s.time code }

/-- EVR_RATE_SET (R566, R579). -/
def cardEvrRateSet : Card where
  opcode := 0x0603
  critical := true
  cls := .security
  lengthOk c := c.paramLength == 4
  state c s :=
    let code := fieldAt c.params 0 2
    needs (code == 0xFFFF || code / 4096 == 9 || code / 4096 == 15 || decide (s.evr.overrides.length < 64) ||
      s.evr.overrides.any fun e => e.1 == code)
  param c _ :=
    let code := fieldAt c.params 0 2
    inRange ((code == 0xFFFF || (code / 4096 != 9 && code / 4096 != 15)) && fieldAt c.params 3 1 != 0)
  run c _ s :=
    let (code, rate, burst) := (fieldAt c.params 0 2, fieldAt c.params 2 1, fieldAt c.params 3 1)
    let s := logEvent 0x9006 [code, rate, burst] (setRate code rate burst s)
    answerOk (leBytes 4 s.evr.stateWord) s

def execEvrRateSet (c : Cmd) (s : State) : Host.Outcome State Fault Refusal := .next (spatu cardEvrRateSet c s)

/-! ### The return of a part (R573, R574, R576) -/

/-- The record of RETURN_PREPARE (T17.3): the stored mode as it was accepted (assumption log 67). -/
def returnRecord (reason : Nat) (mode : Nat) (s : State) : Rec :=
  { code := 0xF001, time := s.time
    slots := [s.part.uid, s.part.fwVersion.zeroExtend 64, BitVec.ofNat 64 reason, BitVec.ofNat 64 mode,
      BitVec.ofNat 64 (s.readSec 0x04), s.evr.head.zeroExtend 64] }

/-- RETURN_PREPARE's five steps (R573); the full reset is due. A locked sequence that they abort is logged with the cause
of Quarantine (assumption log 80); the part is then Blank (DEDUCED, assumption log 68). -/
def prepareReturn (port : Fin 8) (reason : Nat) (s : State) : State :=
  let mode := match s.sec.stored with | .blank => 0 | .opened => 1 | .sealed => 2
  let quit := s.sec.latch
  let s := quarantineSteps { s with sec.latch := true }
  let s := { s with sec.keys := [], power := { s.power with wraps := [], retRoots := [], retRegions := [], record := {} } }
  let s := if s.sec.stored == .blank then s else setStored .blank 2 s
  let r := returnRecord reason mode { s with sec.latch := quit }
  let stored : StoredRec := { seq := s.evr.nextSeq + BitVec.ofNat 32 s.evr.pending.length, entry := r, torn := false }
  let s := { s with evr := { (if s.evr.readonly then s.evr else s.evr.push r) with
    returnRecord := padTo 512 stored.bytes, returnState := true } }
  let s := { s with sec := { s.sec with latch := false, firstCause := 0, latching := 0 } }
  let s := if quit then logEvent 0x2042 [1] s else s
  { s with power.resetDue := some (port, false) }

/-- RETURN_PREPARE (R573): accepted once confirm equals DEV_UID_LO. -/
def cardReturnPrepare : Card where
  opcode := 0x0C00
  critical := true
  cls := .reset
  lengthOk c := c.paramLength == 8
  param c s := inRange (fieldAt c.params 0 4 == s.part.uid.toNat % 2 ^ 32)
  run c _ s := answerOk [] (prepareReturn c.port (fieldAt c.params 4 4) s)

def execReturnPrepare (c : Cmd) (s : State) : Host.Outcome State Fault Refusal := .next (spatu cardReturnPrepare c s)

/-- RETURN_UNLOCK's card as far as it is published (R576). -/
def cardReturnUnlock : Card where
  opcode := 0x0C01
  critical := true
  cls := .maker
  lengthOk c := decide (c.paramLength.toNat ≤ 512)
  run _ _ s := answerOk [] s

/-- Every check of Table 2.7 passes on a granted packet. -/
def checksPass (card : Card) (c : Cmd) (s : State) : Bool :=
  sizeOk card c && flagsOk c && portPermits card c.port s && modePermits card c s &&
  !(s.cport c.port.val).lockedOut &&
  match checkTrailer card { opcode := card.opcode, cmd := c } s with
  | (.inr auth, s) => (commonState card c auth s).isNone && (card.param c s).isNone
  | (.inl _, _) => false

/-- The packet of a row is granted and every check passes. -/
def allChecksPass (card : Card) (c : Cmd) (s : State) : Bool :=
  let s := expireHeld s
  s.admits { opcode := card.opcode, cmd := c } && checksPass card c s

/-- RETURN_UNLOCK: its checks answer as published; what it does once they pass is not, and the model stops there. -/
def execReturnUnlock (c : Cmd) (s : State) : Host.Outcome State Fault Refusal :=
  if allChecksPass cardReturnUnlock c s then .fault .makerMode else .next (spatu cardReturnUnlock c s)

end Sys2Proof.Machine
end

