-- ==== Sys2Proof/Machine/FabRows.lean ====
section
/-!
DEFINITION. The fabric's rows (03, 04): seam repair and status, the storage of the logic elements, and the fabric
ports; and the coping memory's rows (05): slab ports, the window, the scrub walk, throttling and the CPG commands.
-/
namespace Sys2Proof.Machine
open Sys2Proof

/-! ### FAB_SEAM_REPAIR and FAB_STATUS (04 R146, R147) -/

/-- The range fields of Tables 4.19 and 4.21. -/
def groupRangeOk (c : Cmd) : Bool :=
  let (first, count) := (fieldAt c.params 4 2, fieldAt c.params 6 2)
  decide (fieldAt c.params 1 1 ≤ 9) && decide (fieldAt c.params 2 1 ≤ 1) && decide (first ≤ 1279) &&
    decide (1 ≤ count) && decide (count ≤ 1280) && decide (first + count ≤ 1280)

/-- The parameters of FAB_SEAM_REPAIR lie in their ranges (T4.19). -/
def repairOk (c : Cmd) : Bool :=
  let (first, count) := (fieldAt c.params 4 2, fieldAt c.params 6 2)
  decide (fieldAt c.params 0 1 ≤ 9) && decide (fieldAt c.params 1 1 ≤ 1) && decide (fieldAt c.params 2 1 ≤ 1) &&
    decide (fieldAt c.params 3 1 ≤ 31) && decide (first ≤ 1279) && decide (1 ≤ count) && decide (count ≤ 1280) &&
    decide (first + count ≤ 1280) && (fieldAt c.params 2 1 != 1 || count == 1)

/-- A group by numbers. -/
def groupAt (seam dir group : Nat) : SeamGroup :=
  { seam := Fin.ofNat 10 seam, dir := Fin.ofNat 2 dir, group := Fin.ofNat 1280 group }

/-- The fabric is quiescent (R146). -/
def State.fabricQuiescent (s : State) : Bool :=
  s.power.mode == .hold || s.cfg.loaded == 0 ||
    (s.cap.stopped ||| (if s.frozen.getLsbD 6 then s.cap.dutLines else 0)) == BitVec.allOnes 64

/-- The groups of a range are tested and repaired: tested, found, repaired, unrepairable. -/
def repairRange (seam dir first count : Nat) (s : State) : List Byte × State :=
  let (f, r, b, s) := (List.range count).foldl (fun (acc : Nat × Nat × Nat × State) i =>
    let (s, f, r, b) := repairGroup 1 (groupAt seam dir (first + i)) acc.2.2.2
    (acc.1 + f, acc.2.1 + r, acc.2.2.1 + b, s)) (0, 0, 0, s)
  (leBytes 2 count ++ leBytes 2 f ++ leBytes 2 r ++ leBytes 2 b, s)

/-- Action 1: a named wire moves onto its group's spare. Nothing is tested; what the counts of tested groups and of
faults read then, the spec does not state (assumption log 64). -/
def moveWire (g : SeamGroup) (wire : Nat) (s : State) : List Byte × State :=
  let (t, f) := (s.freeVal, s.stepFree.freeVal)
  let s := s.stepFree.stepFree.setGroup g fun x => { x with spareUsed := true, repaired := BitVec.ofNat 5 wire }
  (leBytes 2 t.toNat ++ leBytes 2 f.toNat ++ leBytes 2 1 ++ leBytes 2 0,
    noteCourse g (logEvent 0x4101 [g.seam.val, g.dir.val, g.group.val, wire, 1] s))

/-- FAB_SEAM_REPAIR (R146): each group takes 50 µs; more than 16 groups run in the background. -/
def cardFabSeamRepair : Card where
  opcode := 0x0210
  critical := true
  cls := .operation
  background c := decide (16 < fieldAt c.params 6 2)
  lengthOk c := c.paramLength == 8
  state c s :=
    let (seam, dir, first) := (fieldAt c.params 0 1, fieldAt c.params 1 1, fieldAt c.params 4 2)
    if !s.fabricQuiescent || s.loadUnderWay || s.cap.draining || s.fab.repairing then some Status.badState
    else if seam ≤ 9 && s.seamInactive seam then some Status.isolated
    else if fieldAt c.params 2 1 = 1 && seam ≤ 9 && dir ≤ 1 && first ≤ 1279 then needs (s.group (groupAt seam dir first)).spareFree
    else none
  param c _ := inRange (repairOk c)
  run c _ s :=
    let (seam, dir, first, count) := (fieldAt c.params 0 1, fieldAt c.params 1 1, fieldAt c.params 4 2, fieldAt c.params 6 2)
    if fieldAt c.params 2 1 = 1 then
      let (data, s) := moveWire (groupAt seam dir first) (fieldAt c.params 3 1) s
      answerOk data (s.elapse 5000)
    else if count ≤ 16 then
      let (data, s) := repairRange seam dir first count s
      answerOk data (s.elapse (5000 * count))
    else
      (.accepted, updEntry c.port c.source c.tag (fun e => { e with work := .seamRepair seam dir first count })
        { s with fab.repairing := true })

def execFabSeamRepair (c : Cmd) (s : State) : Host.Outcome State Fault Refusal := .next (spatu cardFabSeamRepair c s)

/-- The rest of a FAB_SEAM_REPAIR that runs in the background. -/
def runRepair (e : Completion) (seam dir first count : Nat) (s : State) : State :=
  let (data, s) := repairRange seam dir first count { s with fab.repairing := false }
  finishEntry e.port e.source e.tag Status.ok data s

/-- The reply of FAB_STATUS kind 0 (T4.22). -/
def State.fabSummary (s : State) : List Byte :=
  let seam (m : Nat) : List Byte :=
    [s.sparesUsed m 0, s.sparesUsed m 1, s.defectCount m 0, s.defectCount m 1, s.frozenCount m 0, s.frozenCount m 1].flatMap
      (leBytes 2 ·)
  (List.range 10).flatMap seam ++ leBytes 8 s.toggling.toNat ++ leBytes 4 s.fab.vioPresent.toNat ++
    leBytes 4 s.fab.vioLost.toNat ++ leBytes 2 s.portsHeld ++
    leBytes 2 ((s.fab.ports.filter fun e => e.2.dropped).length) ++ leBytes 4 0

/-- FAB_STATUS (R147). -/
def cardFabStatus : Card where
  opcode := 0x0211
  critical := false
  cls := .identity
  lengthOk c := c.paramLength == 8
  param c _ := inRange (decide (fieldAt c.params 0 1 ≤ 1) && zeroAt c.params 3 1 &&
    (fieldAt c.params 0 1 == 0 || groupRangeOk c))
  run c _ s :=
    if fieldAt c.params 0 1 = 0 then answerOk s.fabSummary s
    else
      let rec_ (i : Nat) : List Byte :=
        leBytes 8 (s.groupRecord (groupAt (fieldAt c.params 1 1) (fieldAt c.params 2 1) (fieldAt c.params 4 2 + i)))
      answerOk ((List.range (fieldAt c.params 6 2)).flatMap rec_) s

def execFabStatus (c : Cmd) (s : State) : Host.Outcome State Fault Refusal := .next (spatu cardFabStatus c s)

/-! ### Flip-flops, LUT RAM and shift registers (03 R82 to R87, R96 to R98; 04 R112) -/

/-- The data source of a flip-flop of an LE (T3.3). -/
def State.ffData (s : State) (x : LeAddr) (ff1 : Bool) (p : FfPins) : Bool :=
  let c := s.leCfg x
  let mem := s.leMem x
  let sel := if ff1 then c.d1 else c.d0
  if sel = 1 then c.propagate mem p.lutIn != c.carryIn p.cin
  else if sel = 2 then p.x
  else if ff1 then c.o5 mem p.lutIn else c.o6 mem p.lutIn

/-- A tile reset line of a flip-flop: whether it is asserted, with its startup_hold (R85), and whether it is asynchronous. -/
def resetLine (t : TileCfg) (stage sel : Nat) (trA trB : Bool) : Bool × Bool :=
  if sel = 1 then (lineLevel t.aHold stage trA, t.aAsync)
  else if sel = 2 then (lineLevel t.bHold stage trB, t.bAsync) else (false, false)

/-- A flip-flop of an LE sees one instant (T3.6). Inside the recovery and removal window it takes the reset value or
what it would otherwise load (R86). -/
def updateLe (x : LeAddr) (ff1 : Bool) (ev : FabEvent) (s : State) : State :=
  let p := s.ffPins ev x ff1
  let c := s.leCfg x
  let stage := s.leStage x
  let (sel, rstVal, init) := if ff1 then (c.rst1, c.rstVal1, c.init1) else (c.rst0, c.rstVal0, c.init0)
  let (line, isAsync) := resetLine (s.tileCfg x.tileAddr) stage sel p.trA p.trB
  let v := ffNext (stage < 2) (line && isAsync) ev.restore p.edge (line && !isAsync) p.ce init rstVal
    (s.ffShadow x ff1) (s.ffData x ff1 p) (s.ffVal x ff1)
  let v := if ev.inWindow && isAsync && !line && 2 ≤ stage then (if s.freeVal.getLsbD 15 then rstVal else v) else v
  s.putFf x ff1 v

/-- The gate latches of a tile at an instant (R129). -/
def updateGates (t : TileAddr) (ev : FabEvent) (s : State) : State :=
  let tge (clk1 : Bool) : Bool := s.tilePin (60 + b2n clk1) (.net t.course (.tile (Fin.ofNat 16 t.index) (Fin.ofNat 98 (96 + b2n clk1))))
  (s.putGate ev t false (tge false)).putGate ev t true (tge true)

/-- What a seam wire's sending side drives onto it (R111, R113, R114, R117). -/
def State.wireValue (s : State) (g : SeamGroup) (wire : Fin 32) : Bool :=
  !s.seamInactive g.seam.val && !(s.group g).defects.getLsbD wire.val &&
    s.tilePin wire.val (.net (courseOf (txCourse g)) (.seam g wire))

/-- A seam register sees one instant (R111, R112): an ordinary flip-flop without enable or reset, on its group's clock. -/
def updateSeam (g : SeamGroup) (wire : Fin 32) (ev : FabEvent) (s : State) : State :=
  if !bitAt (s.groupField g 0 32) wire.val then s
  else
    let (n, a, b) := g.rxCourse
    let shadow := (SMap.look 0 s.fab.seamShadow g.key).getLsbD wire.val
    let edge := (s.globalEdge ev (s.groupField g 1 6)).1
    s.putSeamReg g wire.val (ffNext (s.stage n a b < 2) false ev.restore edge false true false false shadow
      (s.wireValue g wire) (s.seamReg g wire.val))

/-- The registers of an I/O cell see one instant (R134 to R136): SDR and gearbox registers move at a rise of the cell clock,
DDR ones also take an input bit at its fall (assumption log 72). -/
def updateIo (u : Fin 32) (pin : Fin 48) (ev : FabEvent) (s : State) : State :=
  let c := ioCourse u pin
  let cfg := s.ioCfg u pin
  let (rise, fall) := s.selEdge ev c cfg.clkSel
  let out (i : Nat) : Bool := s.tilePin i (.net c (.io u pin (Fin.ofNat 9 i)))
  let line (i : Nat) : Bool := ev.high.contains (.io u pin (Fin.ofNat 8 i))
  let w := if cfg.reg = 3 then 8 else cfg.reg
  let r := s.ioReg u pin
  let mask : Byte := BitVec.ofNat 8 (2 ^ w - 1)
  let r' : IoReg :=
    if cfg.reg = 0 || s.courseHeld c then r
    else if rise then
      let inp : Byte := BitVec.ofNat 8 (bitsNat ((List.range 8).map line))
      { out := BitVec.ofNat 8 (bitsNat ((List.range 8).map out)) &&& mask, oe := out 8
        inp := if cfg.reg = 2 then setBit r.inp 0 (line 0) else inp &&& mask }
    else if fall && cfg.reg = 2 then { r with inp := setBit r.inp 1 (line 0) }
    else r
  { s with fab.io := SMap.put {} s.fab.io (48 * u.val + pin.val) r' }

/-- FF_UPDATE: a flip-flop, a seam register or an I/O cell's registers see one instant (R84). -/
def execFfUpdate (ff : FfAt) (ev : FabEvent) (s : State) : Host.Outcome State Fault Refusal :=
  let s := s.openEdge ev
  .next (match ff with
    | .le x ff1 => (updateGates x.tileAddr ev (updateLe x ff1 ev s)).stepFree
    | .seam g wire => (updateSeam g wire ev s).stepFree
    | .io u pin => (updateIo u pin ev s).stepFree)

/-- What the memories of a tile see at one instant: an active edge of tclk0, and the pins (R96, R97). -/
def State.memEdge (s : State) (ev : FabEvent) (t : TileAddr) : Bool :=
  s.tileEdge ev t false (s.tilePin 60 (.net t.course (.tile (Fin.ofNat 16 t.index) 96)))

/-- Pin `i` of LE `k` at one instant: 6 and 7 are x0 and x1, 10 is me. -/
def State.memPin (s : State) (t : TileAddr) (k : Fin 16) (i : Nat) : Bool :=
  s.tilePin (3 * k.val + i % 5) (.sink t (11 * k.val + i))

/-- The write address wa[5:0] of a tile at one instant. -/
def State.writeAddr (s : State) (t : TileAddr) : BitVec 6 :=
  addressOf ((List.range 6).map fun i => s.tilePin (49 + i) (.sink t (179 + i)))

/-- What LE `k` of a tile holds after an edge of tclk0 at which we is `we` (R96 to R98): one write port serves every LUT RAM LE
of the tile, and a shift register takes x0 or what the LE before it shifted out. -/
def State.memAfter (s : State) (t : TileAddr) (ram we : Bool) (k : Fin 16) : W64 :=
  let x := t.le k
  let c := s.leCfg x
  let v := s.atEdge
  let (me, x0, x1) := (s.memPin t k 10, s.memPin t k 6, s.memPin t k 7)
  if s.leStage x < 2 || !me then s.leMem x
  else if ram then
    if c.mode = 2 && we then lutRamWrite c.split (v.leMem x) (s.writeAddr t) x0 x1 else s.leMem x
  else if c.mode = 3 then
    srlShift c.split (v.leMem x) (if c.cascade then (v.leMem (t.le (k - 1))).getLsbD 63 else x0) x1
  else s.leMem x

/-- An instant of a tile's memories: the LUT RAMs (`ram`) or the shift registers. -/
def tileMemories (t : TileAddr) (ev : FabEvent) (ram : Bool) (s : State) : State :=
  let we := s.tilePin 48 (.sink t 178)
  let next : State :=
    if s.memEdge ev t then
      (List.range 16).foldl (fun (u : State) k => u.putLeMem (t.le (Fin.ofNat 16 k)) (s.memAfter t ram we (Fin.ofNat 16 k))) s
    else s
  { updateGates t ev s with fab.les := next.fab.les }.stepFree

/-- LUT_RAM_WRITE: the LUT RAM LEs of a tile see one instant (R96, R98, R100). -/
def execLutRamWrite (t : TileAddr) (same : Bool) (rises falls : W64) (regional : List BandEdge) (high : List FabIn) (s : State) :
    Host.Outcome State Fault Refusal :=
  let ev := edgeEvent same { rises, falls, regional } high
  .next (tileMemories t ev true (s.openEdge ev))

/-- SHIFT_REGISTER_SHIFT: the shift-register LEs of a tile see one instant (R97, R98). -/
def execShiftRegisterShift (t : TileAddr) (same : Bool) (edges : LineEdges) (high : List FabIn) (s : State) :
    Host.Outcome State Fault Refusal :=
  let ev := edgeEvent same edges high
  .next (tileMemories t ev false (s.openEdge ev))

/-! ### Slab user ports (05 R152 to R163, R177) -/

/-- One port's part of an edge: whether it has an edge and is not stalled. -/
def portActs (p : SlabPort) (r : Option SlabReq) : Bool :=
  match r with
  | some q => q.en && !p.wait
  | none => false

/-- The access of a port where it acts and its address lies in the cascade. -/
def slabAcc (cfg : SlabCfg) (pc : SlabPortCfg) (slab : Nat) (canWrite : Bool) (p : SlabPort) (r : Option SlabReq) :
    Option SlabAcc :=
  match r with
  | none => none
  | some q =>
    if !portActs p r then none
    else match slabTarget cfg.casLen pc.width q.addr with
      | none => none
      | some (pos, word) =>
        some { slab := slab + 160 * pos, word, width := pc.width, wmode := pc.wmode, req := q, canWrite }

/-- What an access writes to byte `i` of slab `slab`. -/
def accWrites (x : Option SlabAcc) (slab i : Nat) : Byte × Byte × Bool :=
  match x with
  | some x => if x.slab = slab then x.writes i else (0, 0, false)
  | none => (0, 0, false)

/-- Byte `i` of a slab after an edge with the accesses of both ports. -/
def State.edgeByte (s : State) (n : Nat) (cfg : SlabCfg) (a b : Option SlabAcc) (slab i : Nat) : MByte :=
  let (wa, wb) := (accWrites a slab i, accWrites b slab i)
  if cfg.winnerB then mergeByte (s.cop n slab i) wa wb else mergeByte (s.cop n slab i) wb wa

/-- The word that access `x` reads beside access `y` (T5.5), and the stored bytes it decoded; none where it reads
nothing (R156). `reads`: the port reads at all (R154). -/
def State.edgeRead (s : State) (n : Nat) (cfg : SlabCfg) (a b : Option SlabAcc) (x : Option SlabAcc) (y : Option SlabAcc)
    (reads : Bool) : Option ((BitVec 128 × BitVec 16) × List (Nat × Nat × MByte)) :=
  match x with
  | none => none
  | some x =>
    if !reads || (x.wmode == 2 && x.isWrite) then none
    else
      let yMode := match y with | some y => y.wmode | none => 0
      let rd (i : Nat) : Byte × Bool × MByte :=
        readByte (s.cop n x.slab i) (s.edgeByte n cfg a b x.slab i) (x.writes i) (accWrites y x.slab i) x.wmode yMode
      some (assembleWord x rd, x.bytes.map fun i => (x.slab, i, (rd i).2.2))

/-- The bytes an access writes. -/
def storeAcc (n : Nat) (cfg : SlabCfg) (a b : Option SlabAcc) (x : Option SlabAcc) (before : State) (s : State) : State :=
  match x with
  | none => s
  | some x =>
    (x.bytes.filter fun i => (x.writes i).1 != 0).foldl
      (fun s i => s.putCop n x.slab i (before.edgeByte n cfg a b x.slab i)) s

/-- A port's edge passes: its outputs and its place in the stall pattern. A stalled edge moves no output (R177);
an address past the cascade reads as 0 (R161). -/
def edgePort (cfg : SlabCfg) (pc : SlabPortCfg) (thr : Nat) (reads canWrite : Bool) (r : Option SlabReq)
    (got : Option (BitVec 128 × BitVec 16)) (p : SlabPort) : SlabPort :=
  match r with
  | none => p
  | some q =>
    let past := (slabTarget cfg.casLen pc.width q.addr).isNone
    let writes := canWrite && (if pc.width < 3 then q.we else bitsAt q.be.toNat 0 (2 ^ pc.width / 8) != 0)
    let word := if q.en && reads && past && !(pc.wmode == 2 && writes) then some (0, 0) else got
    let p' := if p.wait then p else p.clock (slabLatency cfg.casLen pc.outreg) word
    p'.tick thr

/-- SLAB_PORT_ACCESS: an edge of one or both user ports of a slab, or of a cascade by its head (R155 to R163). A port
whose clock selection is 127 is disabled (T5.1). -/
def slabEdge (n slab : Nat) (ra rb : Option SlabReq) (s : State) : State :=
  let cfg := s.slabCfg n slab
  if cfg.use ≠ 1 || s.stage n (slab % 160) (slab / 160) < 2 || (cfg.casLen ≠ 0 && cfg.casPos ≠ 0) then s
  else
    let ra := if cfg.a.clkSel = 127 then none else ra
    let rb := if cfg.b.clkSel = 127 then none else rb
    let (pa, pb) := (s.slabPort n slab 0, s.slabPort n slab 1)
    let a := slabAcc cfg cfg.a slab true pa ra
    let b := slabAcc cfg cfg.b slab (!cfg.simple) pb rb
    let ga := s.edgeRead n cfg a b a b (!cfg.simple)
    let gb := s.edgeRead n cfg a b b a true
    let thr := s.throttleOf n
    let t := storeAcc n cfg a b b s (storeAcc n cfg a b a s s)
    let t := t.setSlabPort n slab 0 (edgePort cfg cfg.a thr (!cfg.simple) true ra (ga.map (·.1)))
    let t := t.setSlabPort n slab 1 (edgePort cfg cfg.b thr true (!cfg.simple) rb (gb.map (·.1)))
    let note (source : Nat) (g : Option ((BitVec 128 × BitVec 16) × List (Nat × Nat × MByte))) (t : State) : State :=
      ((g.map (·.2)).getD []).foldl (fun t e => noteRead n e.1 e.2.1 source e.2.2 t) t
    note 1 gb (note 0 ga t)

def execSlabPortAccess (brick : Fin 8) (slab : Fin 25600) (a b : Option SlabReq) (s : State) :
    Host.Outcome State Fault Refusal := .next (slabEdge brick.val slab.val a b s)

/-! ### The coping window (05 R165, R166) -/

/-- COPING_WINDOW_ACCESS: a request reaches a brick's window. -/
def execCopingWindowAccess (r : GReq) (s : State) : Host.Outcome State Fault Refusal :=
  let a := r.addr.toNat
  let n := a / 2 ^ 29 % 8
  let o := a % 2 ^ 29
  .next (match s.windowStatus n o with
    | some st => answer r st [] 0 s
    | none =>
      match r.op with
      | .read =>
        let (bs, s) := windowRead n (r.len.toNat + 1) o s
        answer r 0 (bs.map (·.1)) (unitPoison a (bs.map (·.2))) s
      | .write => answer r 0 [] 0 (windowWrite n o (reqBytes r) s))

/-! ### Scrub and throttle (05 R173 to R176) -/

/-- SCRUB_TICK: a tick of a die's walk. -/
def execScrubTick (die : Fin 8) (s : State) : Host.Outcome State Fault Refusal :=
  .next (if s.scrubs die.val then scrubLine die.val s else s)

/-- The throttle temperature and state of a coping die after a sample (R175, R176). -/
def throttleDie (n : Nat) (s : State) : State :=
  let (sensor, t) := s.hottest n
  let old := s.throttleOf n
  let st := throttleNext old t.toInt
  let c := s.coping
  let s := { s with coping := { c with
    throttleTemp := SMap.put 0x190 c.throttleTemp n t, throttleSensor := SMap.put 0 c.throttleSensor n sensor
    throttle := SMap.put 0 c.throttle n st } }
  if st = old then s
  else
    let seen := if st = 1 then setBit s.coping.seen n true else if st = 2 then setBit s.coping.seen (8 + n) true
      else s.coping.seen
    logEvent 0x4210 [n, st, (t.signExtend 64).toNat, sensor] { s with coping := { s.coping with seen := seen } }

/-- THROTTLE_SAMPLE: the steward samples the sensors (by die * 16 + index) and the throttle states follow. -/
def execThrottleSample (readings : List (Nat × BitVec 16)) (s : State) : Host.Outcome State Fault Refusal :=
  .next (
    let s := readings.foldl (fun s r => noteTemp (r.1 / 16) (r.1 % 16) r.2 s) s
    (List.range 8).foldl (fun s n => throttleDie n s) s)

/-! ### CPG commands (05 R178 to R180) -/

/-- CPG_CNT_CLEAR: a write of the register. -/
def execCpgCntClear (value : W32) (s : State) : Host.Outcome State Fault Refusal :=
  .next (clearCpg (value.toNat % 256) s)

/-- CPG_SCRUB_SET (R179). -/
def cardCpgScrubSet : Card where
  opcode := 0x0920
  critical := false
  cls := .operation
  lengthOk c := c.paramLength == 4
  param c _ := inRange (zeroAt c.params 2 2)
  run c _ s :=
    let v : W32 := BitVec.ofNat 32 (fieldAt c.params 0 1 * 65536 + fieldAt c.params 1 1)
    answerOk (leBytes 4 v.toNat) { s with coping := { s.coping with scrubCtl := v } }

def execCpgScrubSet (c : Cmd) (s : State) : Host.Outcome State Fault Refusal := .next (spatu cardCpgScrubSet c s)

/-- CPG_STATUS (R180): a die held in reset reports zeros. -/
def cardCpgStatus : Card where
  opcode := 0x0921
  critical := false
  cls := .identity
  lengthOk c := c.paramLength == 0
  run _ _ s :=
    let die (n : Nat) : List Byte :=
      (List.range 8).flatMap fun i => leBytes 4 (if s.dieAbsent (8 + n) then 0 else s.cpgDie n i)
    answerOk ((List.range 8).flatMap die ++ leBytes 4 s.throttleStatus ++ leBytes 4 s.coping.seen.toNat ++
      leBytes 4 s.coping.scrubCtl.toNat ++ leBytes 4 0) s

def execCpgStatus (c : Cmd) (s : State) : Host.Outcome State Fault Refusal := .next (spatu cardCpgStatus c s)

/-! ### Fabric ports (04 R139 to R144) -/

/-- Beats move on a port: it is not held and its clock toggles. -/
def State.portMoves (s : State) (q : Nat) : Bool := !s.portHeld q && s.portRuns q

/-- TQ_REQUEST: the oldest request of a port's tq FIFO is delivered to the fabric. -/
def execTqRequest (q : Fin 512) (s : State) : Host.Outcome State Fault Refusal :=
  .next (if !s.portMoves q.val then s
    else match (s.port q.val).tq, (s.port q.val).freshTag with
      | r :: rest, some tag =>
        s.setPort q.val fun x =>
          { x with tq := rest ++ x.door.take 1, door := x.door.drop 1, delivered := x.delivered ++ [{ req := r, tag }] }
      | _, _ => s)

/-- TR_RESPONSE: the fabric answers a request delivered to it (R142); a beat whose tag no request carries answers
nothing. -/
def execTrResponse (q : Fin 512) (tag : BitVec 6) (err : Bool) (data : List Byte) (poison : BitVec 4) (s : State) :
    Host.Outcome State Fault Refusal :=
  .next (if !s.portMoves q.val then s
    else match (s.port q.val).delivered.find? (·.tag == tag) with
      | none => s
      | some b =>
        let s := s.setPort q.val fun x => { x with delivered := x.delivered.erase b }
        if err then answer b.req 6 [] 0 s
        else match b.req.op with
          | .read => answer b.req 0 (padTo (b.req.len.toNat + 1) data) poison s
          | .write => answer b.req 0 [] 0 s)

/-- IQ_REQUEST: the fabric's own request, taken while the port can reserve an ir entry (R141) and grout takes it. -/
def execIqRequest (q : Fin 512) (op : GOp) (addr : Addr) (len : BitVec 8) (tag : BitVec 6) (byteEn : BitVec 256)
    (data : List Byte) (poison : BitVec 4) (s : State) : Host.Outcome State Fault Refusal :=
  let r : GReq :=
    { src := portEp q.val, master := 0, op, addr, len, tag := tag.zeroExtend 10, byteEn, data, poison, mgmt := false }
  let p := s.port q.val
  .next (if !s.portMoves q.val || 16 ≤ p.ir.length + p.iq.length || s.injectFrozen r then s
    else groutRequest r (s.setPort q.val fun x => { x with iq := x.iq ++ [(tag, r)] }))

/-- IR_RESPONSE: the fabric takes the oldest response of a port's ir FIFO. -/
def execIrResponse (q : Fin 512) (s : State) : Host.Outcome State Fault Refusal :=
  .next (if !s.portMoves q.val then s else s.setPort q.val fun x => { x with ir := x.ir.drop 1 })

end Sys2Proof.Machine
end

