-- ==== Sys2Proof/Machine/IdCmds.lean ====
section
/-!
DEFINITION. The identity and intake commands: DEV_IDENT and DEV_INVENTORY (01 R32 to R34), CMD_POLL and
CMD_COUNTER_READ (02 R72, R73), one definition per row.
-/
namespace Sys2Proof.Machine
open Sys2Proof

/-! ### Identity (01 T1.12, T1.14 to T1.16) -/

/-- The 64 bytes of DEV_IDENT. -/
def State.identData (s : State) : List Byte :=
  let p := s.part
  leBytes 2 0x4D4C ++ leBytes 2 (p.family / 2 ^ 16) ++ [p.stepping, p.speedGrade, if p.guestVariant then 1 else 0, 0] ++
  leBytes 4 p.fwVersion.toNat ++ leBytes 4 0 ++ leBytes 8 p.uid.toNat ++ leBytes 4 s.diePresent ++
  slice s.dev.strap 0 25 ++ List.replicate 11 0

/-- DEV_IDENT. -/
def cardDevIdent : Card where
  opcode := 0x0100
  critical := false
  cls := .identity
  lengthOk := fun c => c.paramLength == 0
  run := fun _ _ s => answerOk s.identData s

/-- DEV_IDENT. -/
def execDevIdent (c : Cmd) (s : State) : Host.Outcome State Fault Refusal := .next (spatu cardDevIdent c s)

/-- The code of a die state (T1.16). -/
def DieState.code : DieState → Byte
  | .absent => 0 | .reset => 1 | .running => 2 | .fenced => 3 | .off => 4 | .isolated => 5

/-- The record of die `i` (T1.15). -/
def State.dieRecord (s : State) (i : Nat) : List Byte :=
  let d := s.die i
  let (kind, index) := dieKind i
  [BitVec.ofNat 8 kind, BitVec.ofNat 8 index, if i < 25 then nth 0 s.dev.strap i else 0, d.state.code,
   if i < 25 then SMap.look s.part.stepping s.part.dieStepping i else 0,
   BitVec.ofNat 8 (b2n d.invalid + 2 * b2n d.duplicate + 4 * b2n d.partner + 8 * b2n d.trainFailed), 0, 0]

/-- DEV_INVENTORY. -/
def cardDevInventory : Card where
  opcode := 0x0101
  critical := false
  cls := .identity
  lengthOk := fun c => c.paramLength == 0
  run := fun _ _ s => answerOk (leBytes 8 s.time ++ ((List.range 26).map s.dieRecord).flatten) s

/-- DEV_INVENTORY. -/
def execDevInventory (c : Cmd) (s : State) : Host.Outcome State Fault Refusal := .next (spatu cardDevInventory c s)

/-! ### The intake's own commands (02 T2.16, T2.18) -/

/-- The reply of CMD_POLL for an entry. -/
def Completion.pollData (x : Completion) : List Byte :=
  let data := if x.done then x.data else []
  leBytes 2 x.tag.toNat ++ leBytes 2 x.opcode.toNat ++
  leBytes 2 (if x.done then x.status else Status.accepted).toNat ++ [if x.done then 100 else x.progress, 0] ++
  leBytes 4 data.length ++ data

/-- CMD_POLL: a finished command's entry is released. -/
def cardCmdPoll : Card where
  opcode := 0x0110
  critical := false
  cls := .identity
  lengthOk := fun c => c.paramLength == 4
  param := fun c s =>
    inRange (zeroAt c.params 2 2 && (s.entry c.port c.source (BitVec.ofNat 16 (fieldAt c.params 0 2))).isSome)
  run := fun c _ s =>
    let tag : BitVec 16 := BitVec.ofNat 16 (fieldAt c.params 0 2)
    match s.entry c.port c.source tag with
    | some x => answerOk x.pollData (if x.done then releaseEntry c.port c.source tag s else s)
    | none => answerWith Status.badParam s

/-- CMD_POLL. -/
def execCmdPoll (c : Cmd) (s : State) : Host.Outcome State Fault Refusal := .next (spatu cardCmdPoll c s)

/-- CMD_COUNTER_READ. -/
def cardCmdCounterRead : Card where
  opcode := 0x0111
  critical := false
  cls := .identity
  lengthOk := fun c => c.paramLength == 0
  run := fun _ _ s =>
    answerOk (((List.range 4).map fun k => leBytes 8 (SMap.look 0 s.intake.counters k).toNat).flatten ++
      [BitVec.ofNat 8 (s.sec.slots % 16), 0, 0, 0]) s

/-- CMD_COUNTER_READ. -/
def execCmdCounterRead (c : Cmd) (s : State) : Host.Outcome State Fault Refusal := .next (spatu cardCmdCounterRead c s)

end Sys2Proof.Machine
end

