-- ==== Sys2Proof/Machine/LnsRows.lean ====
section
/-!
DEFINITION. The LNS commands (09 R329 to R333), one definition per row.
-/
namespace Sys2Proof.Machine
open Sys2Proof

/-! ### Lane lists -/

/-- The lanes `first` to `first + count - 1`. -/
def laneList (first count : Nat) : List Nat := (List.range count).map (first + ·)

/-- A list of lanes that exists. -/
def lanesExist (first count : Nat) : Bool := 1 ≤ count && count ≤ 256 && first + count ≤ 256

/-- What stops a command that changes lanes, before its own rules: a lane die out of service, or a retired lane
(R303). -/
def State.lanesBlocked (s : State) (ls : List Nat) : Option (BitVec 16) :=
  if ls.any fun l => s.laneDieOut (l / 32) then some Status.isolated
  else if ls.any fun l => (s.lane l).state == .retired then some Status.retired
  else none

/-- Every lane belongs to an enabled PCIe controller: the lanes a command may name in Hold (14 R466). -/
def State.pcieOnly (s : State) (ls : List Nat) : Bool := ls.all s.pcieLane

/-- A lane in raw use. -/
def Lane.raw (x : Lane) : Bool := x.use == 4 || x.use == 5 || x.use == 6

/-! ### LNS_CONFIG (R302 to R304, R312, R330) -/

/-- The lanes an LNS_CONFIG changes: those of its list, its controller or its port. -/
def configLanes (ps : List Byte) : List Nat :=
  let (k, f, n) := (fieldAt ps 0 1, fieldAt ps 4 2, fieldAt ps 6 2)
  if k = 0 || k = 3 then laneList f n else if k = 2 then laneList (128 * f) 16 else []

/-- The item it names exists. -/
def configNames (ps : List Byte) : Bool :=
  let (k, f, n) := (fieldAt ps 0 1, fieldAt ps 4 2, fieldAt ps 6 2)
  if k = 0 || k = 3 then lanesExist f n else if k = 1 then f ≤ 7 else k = 2 && f ≤ 1

/-- The rate codes of a raw use (T9.1). -/
def rawRate (use rate : Nat) : Bool := if use = 5 then rate ≤ 6 else if use = 4 || use = 6 then rate ≤ 14 else rate ≤ 15

/-- The state kind 0 needs: a lane in bond or PCIe use keeps it, an Ethernet lane may only go off, and a use other
than Off needs a declared reference. -/
def kind0State (ps : List Byte) (s : State) : Option (BitVec 16) :=
  let (use, sel) := (fieldAt ps 8 1, fieldAt ps 10 1 == 1)
  let ls := configLanes ps
  if use = 0xFF then none
  else
    needs (ls.all fun l =>
      let x := s.lane l
      x.use != 1 && x.use != 2 && (x.use != 3 || use == 0) && (use == 0 || (s.laneRef l sel).1 != 0))

/-- The state kind 1 needs: no lane in service takes a reference whose declaration changes. -/
def kind1State (ps : List Byte) (s : State) : Option (BitVec 16) :=
  let m := fieldAt ps 4 2
  let r := s.refs m
  let used (b : Bool) : Bool := (laneList (32 * m) 32).any fun l => (s.lane l).use != 0 && (s.lane l).refSel == b
  needs (!((fieldAt ps 9 1 != r.freqA.toNat && used false) || (fieldAt ps 10 1 != r.freqB.toNat && used true)))

/-- The state kind 2 needs: its lanes free or its own, and REFA of its lane die at 100 MHz. -/
def kind2State (ps : List Byte) (s : State) : Option (BitVec 16) :=
  if fieldAt ps 8 1 = 0 then none
  else
    needs ((configLanes ps).all (fun l => (s.lane l).use == 0 || (s.lane l).use == 2) && (s.refs (4 * fieldAt ps 4 2)).freqA == 1)

/-- The state kind 3 needs: its lanes free or in the port it names, and an Ethernet reference. -/
def kind3State (ps : List Byte) (s : State) : Option (BitVec 16) :=
  let (f, w, sel) := (fieldAt ps 4 2, fieldAt ps 6 2, fieldAt ps 10 1 == 1)
  let ls := configLanes ps
  let mine := ls.all (fun l => (s.lane l).use == 3) && (s.lane f).ethWidth == w
  let free := ls.all fun l => (s.lane l).use == 0
  needs ((mine || free) && (fieldAt ps 8 1 == 0 || ls.all fun l => 2 ≤ (s.laneRef l sel).1.toNat))

/-- Check step 7 of LNS_CONFIG: lane dies, retired lanes, then its kind's rule. -/
def configState (c : Cmd) (s : State) : Option (BitVec 16) :=
  let ps := c.params
  let k := fieldAt ps 0 1
  if !configNames ps then none
  else if k = 1 then
    if s.laneDieOut (fieldAt ps 4 2) then some Status.isolated else kind1State ps s
  else match s.lanesBlocked (configLanes ps) with
    | some st => some st
    | none => if k = 0 then kind0State ps s else if k = 2 then kind2State ps s else kind3State ps s

/-- The equalisation window's own ranges. -/
def windowOk (ps : List Byte) : Bool :=
  let (lo, hi) := (fieldAt ps 12 1, fieldAt ps 13 1)
  lo ≤ 31 && lo ≤ hi && hi ≤ 31 && fieldAt ps 14 1 < 4

/-- Check step 8 of LNS_CONFIG (T9.16). -/
def configParam (c : Cmd) : Bool :=
  let ps := c.params
  let (k, f, n) := (fieldAt ps 0 1, fieldAt ps 4 2, fieldAt ps 6 2)
  let (use, rate, sel) := (fieldAt ps 8 1, fieldAt ps 9 1, fieldAt ps 10 1)
  zeroAt ps 1 3 && configNames ps &&
  (if k = 0 then
    (use == 0 || use == 4 || use == 5 || use == 6 || use == 0xFF) && (use == 0xFF || rawRate use rate) && sel ≤ 1 &&
    fieldAt ps 11 1 ≤ 10 && windowOk ps && fieldAt ps 15 1 ≤ 1
   else if k = 1 then n == 0 && rate ≤ 3 && sel ≤ 3
   else if k = 2 then
    n == 0 && use ≤ 1 && [1, 3, 5, 7, 10, 15].contains rate && sel ≤ 4 && windowOk ps &&
    fieldAt ps 16 8 % 2 ^ 36 == 0 && fieldAt ps 16 8 < 2 ^ 48 && fieldAt ps 24 8 % 4096 == 0
   else
    [1, 2, 4, 8].contains n && f % 8 % n == 0 && use ≤ 1 && (rate == 13 || rate == 14) && sel ≤ 1 && windowOk ps &&
    fieldAt ps 15 1 ≤ 1)

/-- A lane with a new window (R312). -/
def Lane.setWindow (x : Lane) (ps : List Byte) : Lane :=
  let (lo, hi, f) := (fieldAt ps 12 1, fieldAt ps 13 1, fieldAt ps 14 1)
  { x with ctleLo := BitVec.ofNat 5 lo, ctleHi := BitVec.ofNat 5 hi, ffe := bitAt f 0, dfe := bitAt f 1 }.judgeEq

/-- A window that some lane's floor exceeds is logged once for the write, as loop 4 (assumption log 51). -/
def logWindow (ls : List Nat) (s : State) : State :=
  match ls.find? fun l => (s.lane l).eqNotMet with
  | none => s
  | some l =>
    let x := s.lane l
    let (lo, hi) := eqWindow x.rate.toNat x.ctleLo.toNat x.ctleHi.toNat
    logEvent 0x1050 [4, x.ctleLo.toNat + x.ctleHi.toNat * 2 ^ 8, lo + hi * 2 ^ 8] s

/-- An Ethernet port goes down by command where one of its lanes leaves it. -/
def endPort (l : Nat) (s : State) : State :=
  match s.ethPort l with
  | none => s
  | some q => (ethDown l 2 s).setLane q fun x => { x with ethWidth := 0 }

/-- Kind 0 on one lane. -/
def configLane (ps : List Byte) (l : Nat) (s : State) : State :=
  let use := fieldAt ps 8 1
  if use = 0xFF then s.setLane l (·.setWindow ps)
  else
    let s := if (s.lane l).use = 3 then endPort l s else s
    let s := s.setLane l fun x =>
      { x.off with use := BitVec.ofNat 4 use, rate := BitVec.ofNat 4 (fieldAt ps 9 1), refSel := fieldAt ps 10 1 == 1
                   bringup := fieldAt ps 15 1 == 1 }.setPreset (BitVec.ofNat 4 (fieldAt ps 11 1))
    let s := s.setLane l (·.setWindow ps)
    if use = 0 then s else startLane l s

/-- Kind 1: the die's references are declared. -/
def configRefs (ps : List Byte) (s : State) : State :=
  let new (v : Nat) (old freq : BitVec 2) : BitVec 2 := if v = 0 then 0 else if v = freq.toNat then old else 1
  { s with lanes.refs := SMap.upd {} s.lanes.refs (fieldAt ps 4 2) fun r =>
      { freqA := BitVec.ofNat 2 (fieldAt ps 9 1), freqB := BitVec.ofNat 2 (fieldAt ps 10 1)
        stateA := new (fieldAt ps 9 1) r.stateA r.freqA, stateB := new (fieldAt ps 10 1) r.stateB r.freqB } }

/-- Kind 2: the controller is enabled, on REFA (R304), or disabled, with its settings; disabling takes its link down. -/
def configPcie (ps : List Byte) (s : State) : State :=
  let c := fieldAt ps 4 2
  let on := fieldAt ps 8 1 == 1
  let was := (s.pcie c).enable
  let s := if was && !on then linkDown c 5 s else s
  let s := s.setPcie c fun x =>
    { x with enable := on, maxRate := BitVec.ofNat 4 (fieldAt ps 9 1), maxWidth := BitVec.ofNat 3 (fieldAt ps 10 1)
             ltssm := if on && !was then 1 else x.ltssm
             b4base := BitVec.ofNat 64 (fieldAt ps 16 8), hbase := BitVec.ofNat 64 (fieldAt ps 24 8) }
  (configLanes ps).foldl (fun s l => s.setLane l fun x =>
      let x := if on == was then x else { x.off with use := if on then 2 else 0, refSel := false }
      { x with rate := if on then BitVec.ofNat 4 (fieldAt ps 9 1) else 0 }.setWindow ps) s

/-- Kind 3: an Ethernet port is set up or taken down. -/
def configEth (ps : List Byte) (s : State) : State :=
  let (f, w) := (fieldAt ps 4 2, fieldAt ps 6 2)
  let on := fieldAt ps 8 1 == 1
  let s := endPort f s
  let s := (configLanes ps).foldl (fun s l =>
    let s := s.setLane l fun x =>
      { x.off with use := if on then 3 else 0, rate := BitVec.ofNat 4 (fieldAt ps 9 1), refSel := fieldAt ps 10 1 == 1, bringup := false }
    let s := s.setLane l (·.setWindow ps)
    if on then startLane l s else s) s
  if on then s.setLane f fun x => { x with ethWidth := w } else s

/-- The parameters with which a lane may have to bring itself up: kind 0 with a raw use, kind 3 enabling a port. -/
def configRaises (ps : List Byte) : Bool :=
  let (k, use) := (fieldAt ps 0 1, fieldAt ps 8 1)
  (k == 0 && (use == 4 || use == 5 || use == 6)) || (k == 3 && use == 1)

/-- Executes LNS_CONFIG; kinds 1 and 2 address no lane (R602). -/
def runConfig (c : Cmd) (s : State) : Answer × State :=
  let ps := c.params
  let k := fieldAt ps 0 1
  let ls := configLanes ps
  let s := if k = 0 then ls.foldl (fun s l => configLane ps l s) s
    else if k = 1 then configRefs ps s else if k = 2 then configPcie ps s else configEth ps s
  let s := logWindow ls s
  let named := if k = 0 || k = 3 then ls else []
  if configRaises ps && named.any fun l => (s.lane l).rising then
    (.accepted, { s with lanes.waits := s.lanes.waits ++ [(named, c.port, c.source, c.tag)] })
  else answerOk (s.laneBytes named) s

/-- LNS_CONFIG. -/
def cardLnsConfig : Card where
  opcode := 0x0A00
  critical := true
  cls := .operation
  holdOk := fun c s =>
    let k := fieldAt c.params 0 1
    (k ≠ 0 && k ≠ 3) || s.pcieOnly (configLanes c.params)
  background := fun c => configRaises c.params
  lengthOk := fun c => c.paramLength == 32
  state := configState
  param := fun c _ => inRange (configParam c)
  run := fun c _ s => runConfig c s

/-- LNS_CONFIG. -/
def execLnsConfig (c : Cmd) (s : State) : Host.Outcome State Fault Refusal := .next (spatu cardLnsConfig c s)

/-! ### LNS_LOOP and LNS_PRBS (R313 to R315, R331) -/

/-- The lanes of a command whose first parameters are first and count. -/
def namedLanes (c : Cmd) : List Nat := laneList (fieldAt c.params 0 2) (fieldAt c.params 2 2)

/-- Those lanes exist. -/
def lanesNamed (c : Cmd) : Bool := lanesExist (fieldAt c.params 0 2) (fieldAt c.params 2 2)

/-- Check step 7 of LNS_LOOP and LNS_PRBS: raw use only. -/
def rawState (c : Cmd) (s : State) : Option (BitVec 16) :=
  if !lanesNamed c then none
  else match s.lanesBlocked (namedLanes c) with
    | some st => some st
    | none => needs ((namedLanes c).all fun l => (s.lane l).raw)

/-- LNS_LOOP. -/
def cardLnsLoop : Card where
  opcode := 0x0A01
  critical := true
  cls := .operation
  holdOk := fun c s => s.pcieOnly (namedLanes c)
  lengthOk := fun c => c.paramLength == 8
  state := rawState
  param := fun c _ => inRange (lanesNamed c && fieldAt c.params 4 1 ≤ 3 && zeroAt c.params 5 3)
  run := fun c _ s =>
    answerOk (leBytes 4 (namedLanes c).length) ((namedLanes c).foldl (fun s l => s.setLane l fun x =>
      { x.unlock with loop := BitVec.ofNat 3 (fieldAt c.params 4 1), retimed := [] }) s)

/-- LNS_LOOP. -/
def execLnsLoop (c : Cmd) (s : State) : Host.Outcome State Fault Refusal := .next (spatu cardLnsLoop c s)

/-- One lane under an LNS_PRBS action: 0 stop both, 1 generator, 2 checker, 3 both, 4 clear the counters. -/
def Lane.prbs (x : Lane) (action pattern : Nat) (invert : Bool) : Lane :=
  let set (x : Lane) : Lane := { x with prbsPattern := BitVec.ofNat 3 pattern, prbsInvert := invert }
  let clear (x : Lane) : Lane := { x with prbsErr := 0, prbsBits := 0 }
  let check (x : Lane) : Lane :=
    clear { x with prbsChk := true, prbsLock := false, prbsFill := 0, prbsRun := 0, prbsWin := [] }
  match action with
  | 0 => { x with prbsGen := false, prbsChk := false, prbsLock := false }
  | 1 => set { x with prbsGen := true }
  | 2 => set (check x)
  | 3 => set (check { x with prbsGen := true })
  | _ => clear x

/-- LNS_PRBS. -/
def cardLnsPrbs : Card where
  opcode := 0x0A02
  critical := true
  cls := .operation
  holdOk := fun c s => s.pcieOnly (namedLanes c)
  lengthOk := fun c => c.paramLength == 8
  state := rawState
  param := fun c _ =>
    inRange (lanesNamed c && fieldAt c.params 4 1 ≤ 4 && fieldAt c.params 5 1 ≤ 5 && fieldAt c.params 6 1 ≤ 1 &&
      zeroAt c.params 7 1)
  run := fun c _ s =>
    answerOk (leBytes 4 (namedLanes c).length) ((namedLanes c).foldl (fun s l => s.setLane l fun x =>
      x.prbs (fieldAt c.params 4 1) (fieldAt c.params 5 1) (fieldAt c.params 6 1 == 1)) s)

/-- LNS_PRBS. -/
def execLnsPrbs (c : Cmd) (s : State) : Host.Outcome State Fault Refusal := .next (spatu cardLnsPrbs c s)

/-! ### LNS_EYE_SCAN (R316, R332) -/

/-- A signed byte. -/
def signedAt (bs : List Byte) (off : Nat) : Int := (BitVec.ofNat 8 (fieldAt bs off 1)).toInt

/-- A grid axis stays in its range: first, count, step. -/
def axisOk (first : Int) (count step : Nat) (lo hi : Int) : Bool :=
  1 ≤ count && lo ≤ first && first ≤ hi && first + ((count - 1) * step : Nat) ≤ hi

/-- LNS_EYE_SCAN. -/
def cardLnsEyeScan : Card where
  opcode := 0x0A03
  critical := false
  cls := .operation
  holdOk := fun c s => s.pcieOnly [fieldAt c.params 0 2]
  background := fun _ => true
  lengthOk := fun c => c.paramLength == 24
  state := fun c s =>
    let l := fieldAt c.params 0 2
    if 256 ≤ l then none
    else if s.laneDieOut (l / 32) then some Status.isolated
    else let x := s.lane l; needs (x.locked && !x.scanBusy && !x.margining)
  param := fun c s =>
    let ps := c.params
    let l := fieldAt ps 0 2
    inRange (l < 256 && fieldAt ps 2 1 ≤ 2 && 16 ≤ fieldAt ps 3 1 && fieldAt ps 3 1 ≤ 40 &&
      axisOk (signedAt ps 4) (fieldAt ps 5 1) (fieldAt ps 6 1) (-32) 31 &&
      axisOk (signedAt ps 7) (fieldAt ps 8 1) (fieldAt ps 9 1) (-127) 127 &&
      fieldAt ps 5 1 * fieldAt ps 8 1 ≤ 16384 && (fieldAt ps 2 1 = 0 || pam4 (s.lane l).rate.toNat) &&
      zeroAt ps 10 6 && fieldAt ps 16 8 < 2 ^ 48)
  run := fun c _ s =>
    let ps := c.params
    let l := fieldAt ps 0 2
    let scan : Scan :=
      { port := c.port, source := c.source, tag := c.tag, lane := l, points := fieldAt ps 5 1 * fieldAt ps 8 1
        addr := BitVec.ofNat 64 (fieldAt ps 16 8) }
    (.accepted, { s.setLane l (fun x => { x with scanBusy := true }) with lanes.scans := s.lanes.scans ++ [scan] })

/-- LNS_EYE_SCAN. -/
def execLnsEyeScan (c : Cmd) (s : State) : Host.Outcome State Fault Refusal := .next (spatu cardLnsEyeScan c s)

/-! ### LNS_STATUS (R333) -/

/-- What LNS_STATUS returns for some lanes. -/
def State.lnsStatus (s : State) (ls : List Nat) : List Byte :=
  wordBytesOf ((List.range 8).map fun m => (s.refs m).word) ++
  wordBytesOf ((List.range 2).flatMap fun c => (List.range 6).map fun i => s.pcieWord c i) ++
  wordBytesOf (ls.flatMap fun l => (List.range 12).map fun i => s.laneWord l i)
where
  /-- Words as bytes. -/
  wordBytesOf (ws : List Nat) : List Byte := (ws.map (leBytes 4)).flatten

/-- LNS_STATUS: ISOLATED where it names a lane of a lane die out of service (R303). -/
def cardLnsStatus : Card where
  opcode := 0x0A04
  critical := false
  cls := .identity
  lengthOk := fun c => c.paramLength == 4
  state := fun c s =>
    if lanesNamed c && (namedLanes c).any fun l => s.laneDieOut (l / 32) then some Status.isolated else none
  param := fun c _ => inRange (lanesNamed c)
  run := fun c _ s => answerOk (s.lnsStatus (namedLanes c)) s

/-- LNS_STATUS. -/
def execLnsStatus (c : Cmd) (s : State) : Host.Outcome State Fault Refusal := .next (spatu cardLnsStatus c s)

end Sys2Proof.Machine
end

