-- ==== Sys2Proof/Machine/PwrCmds.lean ====
section
/-!
DEFINITION. The PWR and CLK commands (15 R532 to R534), the power of islands (R527) and the end of a source's locking
(R518), one definition per row.
-/
namespace Sys2Proof.Machine
open Sys2Proof

/-! ### PWR_MODE_SET (R508 to R511, R533) -/

/-- The mode a code names. -/
def modeOf : Nat → PwrMode
  | 0 => .run | 1 => .trim | 2 => .hold | _ => .dormant

/-- The change that a PWR_MODE_SET asks for. -/
def modeCmd (c : Cmd) : ModeCmd :=
  { port := c.port, source := c.source, tag := c.tag, mode := modeOf (fieldAt c.params 0 1)
    wakeEn := BitVec.ofNat 2 (fieldAt c.params 1 1), rtcMatch := BitVec.ofNat 48 (fieldAt c.params 8 8) }

/-- PWR_MODE_SET: it waits where an earlier change is still running (R509) or a drain delays Hold (R510). Hold is not
left while FAB_SEAM_REPAIR runs. -/
def cardPwrModeSet : Card where
  opcode := 0x0300
  critical := true
  cls := .power
  background := fun c => fieldAt c.params 0 1 ≤ 3
  lengthOk := fun c => c.paramLength == 16
  state := fun c s => needs (!(s.fab.repairing && s.power.mode = .hold && fieldAt c.params 0 1 != 2))
  param := fun c s =>
    let en := fieldAt c.params 1 1
    let m := fieldAt c.params 8 8
    inRange (fieldAt c.params 0 1 ≤ 3 && en ≤ 3 && zeroAt c.params 2 6 && m < 2 ^ 48 &&
      (!bitAt en 1 || s.rtcNow.toNat < m))
  run := fun c _ s =>
    let m := modeCmd c
    let p := s.power
    if m.mode ≠ p.mode && (p.holdDue.isSome || p.dormantDue || !p.modeCmds.isEmpty) then
      (.held true, { s with power.modeCmds := p.modeCmds ++ [m] })
    else
      let s := applyMode m s
      if s.power.holdDue.isSome && m.mode = .hold then (.held true, { s with power.modeCmds := [m] })
      else answerOk (leBytes 4 s.power.stateWord) s

/-- PWR_MODE_SET. -/
def execPwrModeSet (c : Cmd) (s : State) : Host.Outcome State Fault Refusal := .next (spatu cardPwrModeSet c s)

/-! ### PWR_TRIM_SET, PWR_POLICY_SET, PWR_STATUS (R534) -/

/-- PWR_TRIM_SET. -/
def cardPwrTrimSet : Card where
  opcode := 0x0301
  critical := true
  cls := .power
  lengthOk := fun c => c.paramLength == 4
  param := fun c _ =>
    let w := fieldAt c.params 0 2
    inRange (150 ≤ w && w ≤ 1700 && zeroAt c.params 2 2)
  run := fun c _ s =>
    let s := { s with power.cap := BitVec.ofNat 16 (fieldAt c.params 0 2) }
    answerOk (leBytes 4 s.power.cap.toNat) s

/-- PWR_TRIM_SET. -/
def execPwrTrimSet (c : Cmd) (s : State) : Host.Outcome State Fault Refusal := .next (spatu cardPwrTrimSet c s)

/-- A field of `n` bytes of the parameters, signed for loops 2 and 3. -/
def loopField (c : Cmd) (off n : Nat) : Int :=
  let v := fieldAt c.params off n
  if 2 ≤ fieldAt c.params 0 1 && 2 ^ (8 * n - 1) ≤ v then (v : Int) - 2 ^ (8 * n) else v

/-- The range of a loop's unit (assumption log 58): its target, and its window. -/
def loopRange (k : Nat) : (Int × Int) × (Int × Int) :=
  if k = 0 then ((0, 100), (0, 255)) else if k = 1 then ((0, 255), (0, 255))
  else if k = 2 then ((-63, 63), (-63, 63)) else ((-31, 31), (0, 31))

/-- The effective target and window (Table 15.9): the requested ones, clipped or widened just enough for the safety
limit. The voltage of 3 % margin is the silicon's: a free value, no higher than 950 mV. -/
def loopEffective (k : Nat) (t lo hi : Int) (s : State) : Int × Int × Int :=
  if k = 0 then
    let floor : Int := min 190 (s.freeVal.toNat % 256 : Nat)
    (max 3 t, min 190 (max lo floor), min 190 (max hi floor))
  else if k = 1 then
    let clip (x : Int) : Int := max 10 (min 40 x)
    (clip t, clip lo, clip hi)
  else if k = 2 then (t, min lo (-4), max hi 4)
  else
    let low : Int := (Config.eyeLow s.fab.trainings).toNat
    let high : Int := (Config.eyeHigh s.fab.trainings).toNat
    (t, max 0 (min lo (low - 2)), min 31 (max hi (high + 2)))

/-- PWR_POLICY_SET takes effect; a breach of the safety limit is logged once. -/
def setPolicy (k : Nat) (t lo hi : Int) (s : State) : State :=
  let (et, el, eh) := loopEffective k t lo hi s
  let s := s.stepFree
  let short := et ≠ t || el ≠ lo || eh ≠ hi
  let b (x : Int) : Byte := BitVec.ofInt 8 x
  let s := s.setLoop k fun _ =>
    { target := b t, hi := b hi, lo := b lo, effTarget := b et, effHi := b eh, effLo := b el, notMet := short }
  if short then
    logEvent 0x1050 [k, (b lo).toNat + 256 * (b hi).toNat, (b el).toNat + 256 * (b eh).toNat] s
  else s

/-- PWR_POLICY_SET. -/
def cardPwrPolicySet : Card where
  opcode := 0x0302
  critical := true
  cls := .power
  lengthOk := fun c => c.paramLength == 8
  param := fun c _ =>
    let k := fieldAt c.params 0 1
    let (rt, rw) := loopRange k
    let t := loopField c 2 1
    let lo := loopField c 4 2
    let hi := loopField c 6 2
    inRange (k ≤ 3 && zeroAt c.params 1 1 && zeroAt c.params 3 1 && lo ≤ hi &&
      rt.1 ≤ t && t ≤ rt.2 && rw.1 ≤ lo && hi ≤ rw.2)
  run := fun c _ s =>
    let k := fieldAt c.params 0 1
    let s := setPolicy k (loopField c 2 1) (loopField c 4 2) (loopField c 6 2) s
    answerOk (leBytes 4 (s.readPwr (0x44 + 8 * k))) s

/-- PWR_POLICY_SET. -/
def execPwrPolicySet (c : Cmd) (s : State) : Host.Outcome State Fault Refusal := .next (spatu cardPwrPolicySet c s)

/-- The PWR registers in offset order. -/
def State.pwrData (s : State) : List Byte :=
  ((List.range 10).map fun i => leBytes 4 (s.readPwr (4 * i))).flatten ++
  ((List.range 8).map fun i => leBytes 4 (s.readPwr (0x40 + 4 * i))).flatten

/-- PWR_STATUS. -/
def cardPwrStatus : Card where
  opcode := 0x0305
  critical := false
  cls := .identity
  lengthOk := fun c => c.paramLength == 0
  run := fun _ _ s => answerOk s.pwrData s

/-- PWR_STATUS. -/
def execPwrStatus (c : Cmd) (s : State) : Host.Outcome State Fault Refusal := .next (spatu cardPwrStatus c s)

/-! ### PWR_ISLAND_SET (R527) -/

/-- A region without its part in one brick. -/
def Region.without (n : Nat) : Region → Option Region
  | .bricks m => let m := setBit m n false; if m = 0 then none else some (.bricks m)
  | .rect b a1 b1 a2 b2 => if b.val = n then none else some (.rect b a1 b1 a2 b2)

/-- A brick and its coping die power down: the personality and every memory of the two are gone. -/
def brickOff (n : Nat) (s : State) : State :=
  let s := { s with
    cfg := { s.cfg with
      loaded := setBit s.cfg.loaded n false, held := s.cfg.held.filterMap (Region.without n)
      load := s.cfg.load.map fun l => { l with region := l.region.bind (Region.without n) }
      versions := SMap.put 0 s.cfg.versions n 0, identity := SMap.put [] s.cfg.identity n []
      frameMem := s.cfg.frameMem.filter fun e => e.1 / (204832 * 1152) != n }
    coping := { s.coping with
      mem := s.coping.mem.filter fun e => e.1 / 2 ^ 29 != n
      ports := s.coping.ports.filter fun e => e.1 / 51200 != n }
    fab := { s.fab with
      les := s.fab.les.filter fun e => e.1 / 6553600 != n
      seamRegs := s.fab.seamRegs.filter fun e => (groupOfKey e.1).rxCourse.1 != n
      seamShadow := s.fab.seamShadow.filter fun e => (groupOfKey e.1).rxCourse.1 != n } }
  dropHeldPorts (keepEdges linesFollow s)

/-- The lanes of a lane die lose their use; retired ones stay retired. -/
def laneDieOff (m : Nat) (s : State) : State :=
  { s with lanes.lanes := SMap.mapAll {} s.lanes.lanes fun l x =>
      if l / 32 = m then
        (if x.state = .retired then { x with use := 0 } else { x.off with use := 0, rate := 0 })
      else x }

/-- A unit's islands power down: its state becomes OFF. -/
def unitOff (u : Nat) (s : State) : State :=
  let s := setUnitDies u .off { s with power.islands := setBit s.power.islands u false }
  let s := if u < 8 then brickOff u s else if u < 16 then laneDieOff (u - 8) s else s
  logEvent 0x1041 [u, 0] s

/-- A unit has powered up: its memories are filled, its seams trained, and it is FENCED. -/
def unitOn (u : Nat) (s : State) : State :=
  let s := setUnitDies u .fenced { s with power.islands := setBit s.power.islands u true }
  let s := if u < 8 then trainSeamsOf (fun m => (seamBricks m).1 == u || (seamBricks m).2 == u) s else s
  logEvent 0x1041 [u, 1] s

/-- PWR_ISLAND_SET. -/
def cardPwrIslandSet : Card where
  opcode := 0x0303
  critical := true
  cls := .power
  background := fun c => fieldAt c.params 1 1 == 1
  lengthOk := fun c => c.paramLength == 4
  state := fun c s =>
    let u := fieldAt c.params 0 1
    let p := s.power.islands.getLsbD u
    if 16 < u || 1 < fieldAt c.params 1 1 then none
    else if s.unitHeld u then some Status.isolated
    else if fieldAt c.params 1 1 = 0 then needs ((s.unit u).state == .fenced && p)
    else needs (!p && !(s.power.poweringUp.any fun x => x.1 == u))
  param := fun c _ => inRange (fieldAt c.params 0 1 ≤ 16 && fieldAt c.params 1 1 ≤ 1 && zeroAt c.params 2 2)
  run := fun c _ s =>
    let u := fieldAt c.params 0 1
    if fieldAt c.params 1 1 = 0 then
      let s := unitOff u s
      answerOk (leBytes 4 s.power.islands.toNat) s
    else (.accepted, { s with power.poweringUp := s.power.poweringUp ++ [(u, c.port, c.source, c.tag)] })

/-- PWR_ISLAND_SET. -/
def execPwrIslandSet (c : Cmd) (s : State) : Host.Outcome State Fault Refusal := .next (spatu cardPwrIslandSet c s)

/-- A power-up ends: its command completes with PWR_ISLANDS. -/
def powerUpDone (u : Nat) (s : State) : State :=
  match s.power.poweringUp.find? (fun x => x.1 == u) with
  | none => s
  | some (_, port, source, tag) =>
    let s := unitOn u { s with power.poweringUp := s.power.poweringUp.filter fun x => x.1 != u }
    finishEntry port source tag Status.ok (leBytes 4 s.power.islands.toNat) s

/-- ISLAND_POWER_UP_DONE. -/
def execIslandPowerUpDone (unit : Fin 17) (s : State) : Host.Outcome State Fault Refusal := .next (powerUpDone unit s)

/-! ### PWR_RESET (R525, 14 R468) -/

/-- PWR_RESET: bond groups send LEAVE (08 R292), and the reset follows its reply; one whose trailer passed clears the alarm latch. -/
def cardPwrReset : Card where
  opcode := 0x0304
  critical := true
  cls := .reset
  lengthOk := fun c => c.paramLength == 0
  run := fun c auth s => answerOk [] (sendLeave { s with power.resetDue := some (c.port, auth.isSome) })

/-- PWR_RESET. -/
def execPwrReset (c : Cmd) (s : State) : Host.Outcome State Fault Refusal := .next (spatu cardPwrReset c s)

/-! ### CLK commands (R518, R520, R524) -/

/-- A source's declared frequency serves: REFA of L0 and L4 must be declared 100 MHz (Table 15.3). -/
def State.sourceDeclared (s : State) (k : Nat) : Bool :=
  if k = 1 then (s.refs 0).freqA == 1 else if k = 2 then (s.refs 4).freqA == 1 else true

/-- A source has edges and is not in failure (R518). -/
def State.sourceGood (s : State) (k : Nat) : Bool :=
  !((k = 0 && s.clk.fsel = 7) || (k = 1 && (s.refs 0).stateA == 2) || (k = 2 && (s.refs 4).stateA == 2) ||
    (s.clk.current.toNat = k && s.clk.mon.stage = 3) || (s.clk.alternate.toNat = k && s.clk.monAlt.stage = 3))

/-- CLK_SOURCE_SET: it answers once the standby PLLs have locked and the hub has switched. -/
def cardClkSourceSet : Card where
  opcode := 0x0310
  critical := true
  cls := .power
  lengthOk := fun c => c.paramLength == 4
  state := fun c s =>
    let p := fieldAt c.params 0 1
    let a := fieldAt c.params 1 1
    needs ((3 < p || s.sourceGood p) && (3 < a || s.sourceGood a))
  param := fun c s =>
    let p := fieldAt c.params 0 1
    let a := fieldAt c.params 1 1
    inRange (p ≤ 3 && (a ≤ 3 || a = 0xFF) && a ≠ p && s.sourceDeclared p && s.sourceDeclared a && zeroAt c.params 2 2)
  run := fun c _ s =>
    (.held false, { s with clk := { s.clk with
      standbyLocked := false
      pendingPrimary := some (BitVec.ofNat 4 (fieldAt c.params 0 1), BitVec.ofNat 4 (fieldAt c.params 1 1)) } })

/-- CLK_SOURCE_SET. -/
def execClkSourceSet (c : Cmd) (s : State) : Host.Outcome State Fault Refusal := .next (spatu cardClkSourceSet c s)

/-- The standby PLLs have locked: the hub switches to a new primary, the alternate's stay locked, and the command
ends. -/
def pllLocked (s : State) : State :=
  match s.clk.pendingPrimary with
  | none => s
  | some (p, a) =>
    let s := { s with clk := { s.clk with
      pendingPrimary := none, primary := p, alternate := a, standbyLocked := a != 15
      monAlt := if a = s.clk.alternate then s.clk.monAlt else {} } }
    let s := if p = s.clk.current then s else refSwitch p.toNat s
    finishHeld Status.ok (leBytes 4 s.clk.srcWord) s

/-- STANDBY_PLL_LOCKED. -/
def execStandbyPllLocked (s : State) : Host.Outcome State Fault Refusal := .next (pllLocked s)

/-- The sources CLKOUT may take (R524). -/
def clkOutSource (k : Nat) : Bool := k ≤ 4 || (0x10 ≤ k && k ≤ 0x20) || k = 0xFF

/-- CLK_OUT_SET. -/
def cardClkOutSet : Card where
  opcode := 0x0311
  critical := false
  cls := .power
  lengthOk := fun c => c.paramLength == 4
  param := fun c _ => inRange (clkOutSource (fieldAt c.params 0 1) && zeroAt c.params 1 1)
  run := fun c _ s =>
    let s := { s with clk := { s.clk with
      outSrc := BitVec.ofNat 8 (fieldAt c.params 0 1), outDiv := BitVec.ofNat 16 (fieldAt c.params 2 2) } }
    answerOk (leBytes 4 s.clk.outWord) s

/-- CLK_OUT_SET. -/
def execClkOutSet (c : Cmd) (s : State) : Host.Outcome State Fault Refusal := .next (spatu cardClkOutSet c s)

/-- CLK_STATUS: the CLK registers in offset order. -/
def cardClkStatus : Card where
  opcode := 0x0312
  critical := false
  cls := .identity
  lengthOk := fun c => c.paramLength == 0
  run := fun _ _ s => answerOk ((List.range 8).map fun i => leBytes 4 (s.readClk (4 * i))).flatten s

/-- CLK_STATUS. -/
def execClkStatus (c : Cmd) (s : State) : Host.Outcome State Fault Refusal := .next (spatu cardClkStatus c s)

end Sys2Proof.Machine
end

