-- ==== Sys2Proof/Machine/CardTable.lean ====
section
/-!
DEFINITION. The opcode index (02 T2.19): the card of every Spatu command, by which the intake finds what a granted
packet means.
-/
namespace Sys2Proof.Machine
open Sys2Proof

/-- The cards 0x01xx. -/
def cardsId : List Card :=
  [cardDevIdent, cardDevInventory, cardCmdPoll, cardCmdCounterRead]

/-- The cards 0x02xx. -/
def cardsCfg : List Card :=
  [cardCfgBegin, cardCfgData, cardCfgEnd, cardCfgAbort, cardCfgBoot, cardCfgReleaseSet, cardCfgStatus,
    cardFabSeamRepair, cardFabStatus]

/-- The cards 0x03xx. -/
def cardsPwr : List Card :=
  [cardPwrModeSet, cardPwrTrimSet, cardPwrPolicySet, cardPwrIslandSet, cardPwrReset, cardPwrStatus,
    cardClkSourceSet, cardClkOutSet, cardClkStatus]

/-- The cards 0x04xx. -/
def cardsSec : List Card :=
  [cardSecKeyProvision, cardSecKeyErase, cardSecModeSet, cardSecDebugUnlock, cardSecDebugLock,
    cardSecPolicySet, cardSecStatus, cardGstFirewallSet, cardGstIsolate]

/-- The cards 0x05xx. -/
def cardsCap : List Card :=
  [cardCapTake, cardCapRestore, cardCapReadback, cardCapTraceSet, cardCapTriggerSet, cardCapClockRun,
    cardCapStatus, cardDbgFreezeSet, cardDbgEngControl]

/-- The cards 0x06xx. -/
def cardsEvr : List Card :=
  [cardEvrRead, cardEvrHead, cardEvrClear, cardEvrRateSet]

/-- The cards 0x07xx. -/
def cardsAcl : List Card :=
  [cardAclWrite, cardAclRead, cardAclInvalidate]

/-- The cards 0x08xx. -/
def cardsGrt : List Card :=
  [cardGrtFence, cardGrtUnfence, cardGrtSlotSet, cardGrtProbeSet, cardGrtStatus]

/-- The cards 0x09xx. -/
def cardsDram : List Card :=
  [cardDrcTrain, cardDrcStatus, cardMekRegionSet, cardMekStatus, cardCpgScrubSet, cardCpgStatus]

/-- The cards 0x0Axx. -/
def cardsLns : List Card :=
  [cardLnsConfig, cardLnsLoop, cardLnsPrbs, cardLnsEyeScan, cardLnsStatus, cardBndDomainSet, cardBndTrain,
    cardBndWindowSet, cardBndResumeSet, cardBndRelay, cardBndStatus]

/-- The cards 0x0Bxx. -/
def cardsEng : List Card :=
  [cardEngLoad, cardEngStart, cardEngStop, cardEngStatus]

/-- The cards 0x0Cxx. -/
def cardsReturn : List Card :=
  [cardReturnPrepare, cardReturnUnlock]

/-- Every card. -/
def cards : List Card :=
  cardsId ++ cardsCfg ++ cardsPwr ++ cardsSec ++ cardsCap ++ cardsEvr ++ cardsAcl ++ cardsGrt ++ cardsDram ++ cardsLns ++ cardsEng ++ cardsReturn

/-- The card of an opcode; none: the opcode is undefined (R74). -/
def cardOf (op : BitVec 16) : Option Card := cards.find? (·.opcode == op)

end Sys2Proof.Machine
end

