-- ==== Sys2Proof/Machine/IntakeRows.lean ====
section
/-!
DEFINITION. The command intake's own events (02): submission, the arbiter's cycle, lockouts and locked sequences,
completions and notifications, and the register accesses that have no other row (00 R7, R8, R600). One definition per
row.
-/
namespace Sys2Proof.Machine
open Sys2Proof

/-! ### Submission (R41 to R45) -/

/-- Bytes written to CMD_MB_REQ of a controller from offset 0; dropped while req_busy is 1 (R42). -/
def writeMbReq (ctl : Fin 2) (bytes : List Byte) (s : State) : State :=
  if (s.space (Fin.ofNat 8 ctl.val) 0).reqBusy then s
  else
    let bs := bytes.take 131072
    let m := bs.zipIdx.foldl
      (fun (m : SMap Byte) b => SMap.put 0 m (ctl.val * 131072 + b.2) b.1) s.intake.mbReq
    { s with intake := { s.intake with mbReq := m, mbExtent := SMap.upd 0 s.intake.mbExtent ctl.val (max bs.length) } }

/-- The first `n` bytes of CMD_MB_REQ of a controller. -/
def State.mbReqBytes (s : State) (ctl : Fin 2) (n : Nat) : List Byte :=
  (List.range n).map fun i => SMap.look 0 s.intake.mbReq (ctl.val * 131072 + i)

/-- The packet in CMD_MB_REQ is submitted: what was written since the last submission, never less than the 16 header
bytes (R43); where nothing was, the length that the header gives (R44; assumption log 69). -/
def mailboxPacket (ctl : Fin 2) (s : State) : State :=
  let written := SMap.look 0 s.intake.mbExtent ctl.val
  let n := if written = 0 then min 131072 (packetSize (s.mbReqBytes ctl 16)) else max 16 written
  let s := { s with intake.mbExtent := SMap.put 0 s.intake.mbExtent ctl.val 0 }
  submitBytes (Fin.ofNat 8 ctl.val) 0 (s.mbReqBytes ctl n) s

/-- A packet's bytes arrive at a port (assumption log 69: a PCIe host's writes of CMD_MB_REQ come with it). -/
def arrive (port : Fin 8) (source : BitVec 16) (bytes : List Byte) (s : State) : State :=
  if !s.sourceExists port source then s
  else if port = 0 then mailboxPacket 0 (writeMbReq 0 bytes s)
  else if port = 1 then mailboxPacket 1 (writeMbReq 1 bytes s)
  else if serialPort port.val then serialBytes port bytes s
  else submitBytes port source bytes s

def execPacketSubmit (port : Fin 8) (source : BitVec 16) (bytes : List Byte) (s : State) :
    Host.Outcome State Fault Refusal := .next (arrive port source bytes s)

/-- SERIAL_PACKET_TIMEOUT: 100 ms without a further byte (R43). -/
def execSerialPacketTimeout (port : Fin 8) (s : State) : Host.Outcome State Fault Refusal :=
  .next (if serialPort port.val then dropPartial port.val s else s)

/-- CMD_MB_DOORBELL (T2.2). -/
def execCmdMbDoorbellSubmit (ctl : Fin 2) (value : W32) (s : State) : Host.Outcome State Fault Refusal :=
  .next (if value.getLsbD 0 then mailboxPacket ctl s else s)

/-- CMD_MB_ACK (T2.2, R42). -/
def execCmdMbReplyTaken (ctl : Fin 2) (value : W32) (s : State) : Host.Outcome State Fault Refusal :=
  .next (if value.getLsbD 0 then takeReply (Fin.ofNat 8 ctl.val) 0 s else s)

/-- CMD_RANK_COMMIT (R65, T2.11). -/
def execCmdRankCommit (value : W32) (s : State) : Host.Outcome State Fault Refusal :=
  .next (if value.getLsbD 0 then commitRanks s else s)

/-! ### The arbiter's cycle (R64 to R67) -/

/-- Takes a packet off its port's requests. -/
def dropRequest (q : Packet) (s : State) : State :=
  s.setCport q.cmd.port.val fun x => { x with requests := x.requests.erase q }

/-- A withdrawn packet ends without a reply, and its port's loss and retry counts stand (R67): the port's other
packets lose and are answered with the retry count as it is, at least 1. Every other port loses as ever. -/
def withdraw (q : Packet) (s : State) : State :=
  let n := q.cmd.port.val
  let s := dropRequest q (s.setSpace q.cmd.port q.cmd.source fun sp => { sp with reqBusy := false })
  let rest := (s.cport n).requests
  let s := rest.foldl (fun s p => replyBackoff p (max 1 (s.cport n).retry) s)
    (s.setCport n fun x => { x with requests := [] })
  loseAll s

/-- The arbitration of one cycle: the packet granted, the losers answered. `gone`: the port that withdraws if it is
the one granted; the rotations then stay where they were, and the port's other packets are answered with the retry
count as it stands (assumption log 76). -/
def arbitrate (gone : Option (Fin 8)) (s : State) : Option Packet × State :=
  if s.intake.busy.isSome then (none, loseAll s)
  else
    let s := takeRanks s
    match s.chosen with
    | none => (none, loseAll s)
    | some q =>
      if gone = some q.cmd.port then (none, withdraw q s)
      else (some q, loseAll (grant q (dropRequest q s)))

/-- An intake cycle: 10 ns of the device time base. A granted RETURN_UNLOCK that passes every check stops the model
as its row does. -/
def intakeCycle (gone : Option (Fin 8)) (s : State) : Host.Outcome State Fault Refusal :=
  let s := expireHeld s
  if !s.intake.opened then .next (s.elapse 1)
  else
    match arbitrate gone s with
    | (none, s) => .next (s.elapse 1)
    | (some q, s) =>
      if q.opcode = 0x0C01 && checksPass cardReturnUnlock q.cmd s then .fault .makerMode
      else .next ((process (cardOf q.opcode) q s).elapse 1)

def execIntakeCycle (s : State) : Host.Outcome State Fault Refusal := intakeCycle none s

/-- REQUEST_WITHDRAW: the cycle in which a port withdraws (R67). -/
def execRequestWithdraw (port : Fin 8) (s : State) : Host.Outcome State Fault Refusal := intakeCycle (some port) s

/-! ### Lockouts and locked sequences -/

/-- LOCKOUT_END: 60 s after its entry (R55). -/
def execLockoutEnd (port : Fin 8) (s : State) : Host.Outcome State Fault Refusal :=
  let p := s.cport port.val
  .next (if p.lockedOut then
      (s.passTo (p.lockoutAt + 60 * ticksPerS)).setCport port.val fun x => { x with lockedOut := false, failRun := 0 }
    else s)

/-- SESSION_TIMEOUT: 10 s after lock_begin was accepted (R69, R70). -/
def execSessionTimeout (s : State) : Host.Outcome State Fault Refusal :=
  .next (match s.intake.lock with
    | none => s
    | some l => lockAbort 0 (s.passTo (l.start + 10 * ticksPerS)))

/-! ### Completions (R62, R63) -/

/-- COMPLETION_DISCARDED: a finished entry that 60 s have left uncollected. -/
def execCompletionDiscarded (port : Fin 8) (source tag : BitVec 16) (s : State) :
    Host.Outcome State Fault Refusal :=
  .next (match s.entry port source tag with
    | none => s
    | some e =>
      if !e.done then s
      else
        releaseEntry port source tag (logEvent 0x2006 [port.val, source.toNat, tag.toNat, e.status.toNat]
          (s.passTo (e.doneAt + 60 * ticksPerS))))

/-- A notification can leave: its reply space is free; ports 6 and 7 take it at once (assumption log 49). -/
def State.replyFree (s : State) (port : Fin 8) (source : BitVec 16) : Bool :=
  port == 6 || port == 7 || (s.space port source).current.isNone

/-- NOTIFICATION_DELIVERY: the notification reaches the issuing port and its delivery releases the entry. -/
def execNotificationDelivery (port : Fin 8) (source tag : BitVec 16) (s : State) :
    Host.Outcome State Fault Refusal :=
  .next (match s.entry port source tag with
    | none => s
    | some e =>
      if e.done && e.notify && s.replyFree port source then
        deliver port source (mkReply s tag e.status e.opcode e.data true e.auth) (releaseEntry port source tag s)
      else s)

/-- A background command does what is left of its work and ends; `others` is the worst status that the other members
of a domain operation report (07 R247), the greater code being the worse. Work that another row ends is untouched. -/
def endWork (e : Completion) (others : BitVec 16) (s : State) : State :=
  match e.work with
  | .cfgFetch addr n => runFetch e addr.toNat n s
  | .seamRepair seam dir first count => runRepair e seam dir first count s
  | .engLoad ps =>
    let (status, data, s) := engLoadEnds ps s
    finishEntry e.port e.source e.tag status data s
  | .evrClear port source slot => runClear e port source slot s
  | .domain status data =>
    reach e.port e.source e.tag (if status.toNat < others.toNat then others else status) data s
  | .other | .engStop _ | .engHalt _ | .relay _ _ => s

/-- BACKGROUND_COMPLETION. -/
def execBackgroundCompletion (port : Fin 8) (source tag others : BitVec 16) (s : State) :
    Host.Outcome State Fault Refusal :=
  .next (match s.entry port source tag with
    | none => s
    | some e => if e.done then s else endWork e others s)

/-! ### Register accesses without a row of their own (00 R7, R8, R600) -/

/-- An address in the hub control space. -/
def inHub (a : Nat) : Bool := 0x3F0000000000 ≤ a && a < 0x3F0001000000

/-- An address in the register block of an engine's window (11 R375). -/
def inEngBlock (a : Nat) : Bool := 0x300000000000 ≤ a && a < 0x30000C000000 && decide (0xF0000 ≤ a % 2 ^ 20)

/-- REGISTER_WRITE: a whole word, under its access code. -/
def execRegisterWrite (addr : Addr) (value : W32) (s : State) : Host.Outcome State Fault Refusal :=
  let a := addr.toNat
  .next (if inHub a then writeHub (hubOffset a) value s
    else if inEngBlock a then writeEngReg (windowOf a).1 ((windowOf a).2 - 0xF0000) value s
    else s)

/-- REGISTER_PAIR_LOW_READ: a read of a register; that of a pair's low word latches the high word (R7). -/
def execRegisterPairLowRead (addr : Addr) (s : State) : Host.Outcome State Fault Refusal :=
  let a := addr.toNat
  .next (if inHub a then (readHub (hubOffset a) s).2
    else if inEngBlock a then (readEngWord (windowOf a).1 ((windowOf a).2 - 0xF0000) s).2
    else s)

/-- HUB_CONTROL_REQUEST. -/
def execHubControlRequest (r : GReq) (s : State) : Host.Outcome State Fault Refusal :=
  let ((status, data), s) := hubAccess r s
  .next (answer r status data 0 s)

end Sys2Proof.Machine
end

