-- ==== Sys2Proof/Machine/LaneRows.lean ====
section
/-!
DEFINITION. The events of lanes, references, PCIe and Ethernet (08 T8.4, 09), one definition per row.
-/
namespace Sys2Proof.Machine
open Sys2Proof

/-- LANE_LOCK_LOST (08 R287). -/
def execLaneLockLost (l : Fin 256) (s : State) : Host.Outcome State Fault Refusal := .next (bondSettle s (lockLost l s))

/-- LANE_RETRAIN_DONE (08 R287). -/
def execLaneRetrainDone (l : Fin 256) (result : RetrainResult) (s : State) : Host.Outcome State Fault Refusal :=
  .next (bondSettle s (retrainDone l result s))

/-- REF_CHECK (R305). -/
def execRefCheck (die : Fin 8) (a b : RefReading) (s : State) : Host.Outcome State Fault Refusal :=
  .next (refCheckOne die true b (refCheckOne die false a s))

/-- BRINGUP_SET_RECEIVED (R306, R307). -/
def execBringupSetReceived (l : Fin 256) (first : BitVec 10) (rest : List (BitVec 10)) (s : State) :
    Host.Outcome State Fault Refusal :=
  .next (bringupSet l (first :: rest) s)

/-- BRINGUP_TIMEOUT (R307). -/
def execBringupTimeout (l : Fin 256) (s : State) : Host.Outcome State Fault Refusal := .next (bringupTimeout l s)

/-- TRAINING_BLOCKS_DONE (R307 step 5). -/
def execTrainingBlocksDone (l : Fin 256) (s : State) : Host.Outcome State Fault Refusal :=
  .next (if (s.lane l).state = .bringup && (s.lane l).step = 5 then laneUp l s else s)

/-- BLOCK_LOCK_CHANGE (R308, R309): the blocks as they arrive. -/
def execBlockLockChange (l : Fin 256) (blocks : List (List (BitVec 2))) (s : State) : Host.Outcome State Fault Refusal :=
  .next (bondSettle s (blocksArrive l blocks s))

/-- PRBS_CHECKER_LOCK (R315): the bits as the checker sees them. -/
def execPrbsCheckerLock (l : Fin 256) (bits : List Bool) (s : State) : Host.Outcome State Fault Refusal :=
  .next (s.setLane l fun x => bits.foldl Lane.prbsBit x)

/-- The taps of a lane as the training of a standard leaves them: free values (assumption log 83). -/
def trainedTaps (k : Nat) (x : Lane) : Lane :=
  { x with txPre := (Config.free k).truncate 8, txPost := (Config.free k).extractLsb' 8 8 }

/-- PERST_ASSERTED (R318). -/
def execPerstAsserted (ctl : Fin 2) (s : State) : Host.Outcome State Fault Refusal :=
  .next (if (s.pcie ctl).enable then linkDown ctl 0 s else s)

/-- PCIE_LINK_UP (R322): the lanes of the link are in service, their taps as the link's training left them (R311). A link whose
lanes are retired, whose lane die is out of service (01 R17) or whose reference is in fault (R305) stays down. -/
def execPcieLinkUp (ctl : Fin 2) (width : BitVec 3) (rate : BitVec 4) (flit : Bool) (s : State) :
    Host.Outcome State Fault Refusal :=
  .next (if !(s.pcie ctl).enable || (s.pcie ctl).ltssm = 8 || s.laneDieOut (4 * ctl.val) || (s.refs (4 * ctl.val)).stateA = 2 then s
    else
      let s := s.setPcie ctl fun x => { x with ltssm := 3, width, rate, flit }
      let s := (List.range 16).foldl (fun s i => s.setLane (128 * ctl.val + i) fun x =>
        if x.use = 2 && x.state ≠ .retired then trainedTaps (s.freeNo + i) { x with state := .up, locked := true } else x) s
      let s := { s with freeNo := s.freeNo + 16 }
      logEvent 0x6010 [ctl.val, width.toNat, rate.toNat, b2n flit] s)

/-- PCIE_LINK_DOWN (R322). -/
def execPcieLinkDown (ctl : Fin 2) (cause : BitVec 3) (s : State) : Host.Outcome State Fault Refusal :=
  .next (linkDown ctl cause.toNat s)

/-- PCIE_RECOVERY_RETRAIN (R323). -/
def execPcieRecoveryRetrain (ctl : Fin 2) (lane : Fin 16) (s : State) : Host.Outcome State Fault Refusal :=
  .next (let l := 128 * ctl.val + lane.val
    if (s.lane l).use = 2 then lockLost l s else s)

/-- BAR4_REQUEST (R319, R321). -/
def execBar4Request (ctl : Fin 2) (op : GOp) (offset : BitVec 36) (len : BitVec 8) (tag : BitVec 10)
    (byteEn : BitVec 256) (data : List Byte) (poisoned : Bool) (s : State) : Host.Outcome State Fault Refusal :=
  .next (groutRequest (bar4Req ctl op offset.toNat len tag byteEn data poisoned s) s)

/-- HOST_WINDOW_REQUEST (R320). -/
def execHostWindowRequest (r : GReq) (completion : Option (Bool × List Byte × Bool)) (s : State) :
    Host.Outcome State Fault Refusal :=
  .next (hostWindow r completion s)

/-- HOST_WINDOW_TIMEOUT (R320). -/
def execHostWindowTimeout (r : GReq) (s : State) : Host.Outcome State Fault Refusal :=
  .next (let c := bitsAt r.addr.toNat 40 1
    if (s.pcie c).outstanding.contains r then
      answer r 3 [] 0 (s.setPcie c fun x => { x with outstanding := x.outstanding.erase r })
    else s)

/-- ETH_PORT_STATE_CHANGE (R325): a port stays down that has a retired lane, one that rests or one without its reference. -/
def execEthPortStateChange (lane : Fin 256) (up : Bool) (cause : BitVec 2) (s : State) :
    Host.Outcome State Fault Refusal :=
  .next (let x := s.lane lane
    let ls := (List.range x.ethWidth).map (lane.val + ·)
    if x.ethWidth = 0 || x.ethUp == up then s
    else if up then
      if s.laneDieOut (lane.val / 32) || ls.any fun l =>
          (s.lane l).state == .retired || s.laneRests l || (s.laneRef l (s.lane l).refSel).2 == 2 then s
      else
        let s := ls.foldl (fun s l => s.setLane l fun x => trainedTaps (s.freeNo + l) { x with state := .up, locked := true }) s
        let s := { s with freeNo := s.freeNo + 256 }
        finishWaits (logEvent 0x6020 [lane.val, x.ethWidth, x.rate.toNat] (s.setLane lane fun x => { x with ethUp := true }))
    else logEvent 0x6021 [lane.val, cause.toNat] (s.setLane lane fun x => { x with ethUp := false }))

/-- PCIE_CONFIG_WRITE: Bus Master Enable, the power state, and lane margining, which a lane being scanned
refuses (R316, R320). -/
def execPcieConfigWrite (ctl : Fin 2) (w : CfgWrite) (s : State) : Host.Outcome State Fault Refusal :=
  .next (match w with
    | .bme on => s.setPcie ctl fun x => { x with bme := on }
    | .d3hot on => s.setPcie ctl fun x => { x with d3hot := on }
    | .margin lane start =>
      let l := 128 * ctl.val + lane % 16
      if (s.lane l).scanBusy then s else s.setLane l fun x => { x with margining := start })

end Sys2Proof.Machine
end

