-- ==== Sys2Proof/Machine/ScanRows.lean ====
section
/-!
DEFINITION. The end of an eye scan (09 R316, R332).
-/
namespace Sys2Proof.Machine
open Sys2Proof

/-- Writes bytes as the steward master, block by block: the bytes written before the first refusal, and its status. -/
def scanWrite (a : Nat) (bs : List Byte) (s : State) : BitVec 4 × Nat × State :=
  (blocksOf bs.length a bs).foldl (fun (acc : BitVec 4 × Nat × State) p =>
    if acc.1 = 0 then
      let (st, s) := busWrite stewardEp 0 p.1 p.2 acc.2.2
      if st = 0 then (0, acc.2.1 + p.2.length, s) else (st, acc.2.1, s)
    else acc) (0, 0, s)

/-- The counts of a scan: what the eye monitor counted, free values (assumption log 3). -/
def scanCounts (points : Nat) (s : State) : List Byte × State :=
  ((List.range (4 * points)).map fun i => Config.freeByte s.freeNo i, s.stepFree)

/-- The completion data of LNS_EYE_SCAN. -/
def scanData (points : Nat) (maxErrors : W32) : List Byte :=
  leBytes 4 points ++ leBytes 4 maxErrors.toNat ++ leBytes 8 0

/-- A scan ends: its counts are written, and its command completes. -/
def endScan (c : Scan) (outcome : ScanEnd) (s : State) : State :=
  let s := { s.setLane c.lane (fun x => { x with scanBusy := false }) with lanes.scans := s.lanes.scans.erase c }
  let (points, most, status) := match outcome with
    | .complete m => (c.points, m, Status.ok)
    | .lockLost p m => (min p.toNat c.points, m, Status.badState)
    | .writeRefused p m st => (min p.toNat c.points, m, readError st)
  let (bs, s) := scanCounts points s
  let (st, done, s) := scanWrite c.addr.toNat bs s
  finishEntry c.port c.source c.tag (if st = 0 then status else readError st) (scanData (done / 4) most) s

/-- EYE_SCAN_DONE: the scan of a lane is complete or ends early. -/
def execEyeScanDone (l : Fin 256) (outcome : ScanEnd) (s : State) : Host.Outcome State Fault Refusal :=
  .next (match s.lanes.scans.find? (·.lane == l.val) with
    | none => s
    | some c => endScan c outcome s)

end Sys2Proof.Machine
end

