-- ==== Sys2Proof/Machine/Dispatch.lean ====
section
/-!
DEFINITION. The dispatch: one arm per command of the opcode table.
-/
namespace Sys2Proof.Machine
open Sys2Proof

/-- What a command does (spec/opcode_table.json, row by row). -/
def exec (i : Instr) (s : State) : Host.Outcome State Fault Refusal :=
  match i with
  | .powerOnReset a1 => Sys2Proof.Machine.execPowerOnReset a1 s
  | .guestTrainingDeadline => Sys2Proof.Machine.execGuestTrainingDeadline s
  | .intakeOpen => Sys2Proof.Machine.execIntakeOpen s
  | .fullReset a1 => Sys2Proof.Machine.execFullReset a1 s
  | .resetNAsserted => Sys2Proof.Machine.execResetNAsserted s
  | .watchdogExpiry a1 => Sys2Proof.Machine.execWatchdogExpiry a1 s
  | .stewardMismatch a1 => Sys2Proof.Machine.execStewardMismatch a1 s
  | .vinLost => Sys2Proof.Machine.execVinLost s
  | .thermalTrip a1 a2 a3 => Sys2Proof.Machine.execThermalTrip a1 a2 a3 s
  | .tamperAsserted => Sys2Proof.Machine.execTamperAsserted s
  | .wake a1 => Sys2Proof.Machine.execWake a1 s
  | .rtcMatch => Sys2Proof.Machine.execRtcMatch s
  | .dormantEntry => Sys2Proof.Machine.execDormantEntry s
  | .powerLimitStep a1 a2 => Sys2Proof.Machine.execPowerLimitStep a1 a2 s
  | .holdForced a1 => Sys2Proof.Machine.execHoldForced a1 s
  | .xoReading a1 => Sys2Proof.Machine.execXoReading a1 s
  | .xoFailed => Sys2Proof.Machine.execXoFailed s
  | .refMonitorReading a1 a2 => Sys2Proof.Machine.execRefMonitorReading a1 a2 s
  | .refMissingEdges => Sys2Proof.Machine.execRefMissingEdges s
  | .standbyPllLocked => Sys2Proof.Machine.execStandbyPllLocked s
  | .adaptiveLoopStep a1 a2 => Sys2Proof.Machine.execAdaptiveLoopStep a1 a2 s
  | .seamSamplingStep a1 a2 => Sys2Proof.Machine.execSeamSamplingStep a1 a2 s
  | .droopStretch a1 => Sys2Proof.Machine.execDroopStretch a1 s
  | .vioLost a1 => Sys2Proof.Machine.execVioLost a1 s
  | .vioRestored a1 => Sys2Proof.Machine.execVioRestored a1 s
  | .vioSvcLost => Sys2Proof.Machine.execVioSvcLost s
  | .vioSvcRestored a1 => Sys2Proof.Machine.execVioSvcRestored a1 s
  | .devIdent a1 => Sys2Proof.Machine.execDevIdent a1 s
  | .devInventory a1 => Sys2Proof.Machine.execDevInventory a1 s
  | .cmdPoll a1 => Sys2Proof.Machine.execCmdPoll a1 s
  | .cmdCounterRead a1 => Sys2Proof.Machine.execCmdCounterRead a1 s
  | .packetSubmit a1 a2 a3 => Sys2Proof.Machine.execPacketSubmit a1 a2 a3 s
  | .serialPacketTimeout a1 => Sys2Proof.Machine.execSerialPacketTimeout a1 s
  | .intakeCycle => Sys2Proof.Machine.execIntakeCycle s
  | .lockoutEnd a1 => Sys2Proof.Machine.execLockoutEnd a1 s
  | .requestWithdraw a1 => Sys2Proof.Machine.execRequestWithdraw a1 s
  | .sessionTimeout => Sys2Proof.Machine.execSessionTimeout s
  | .completionDiscarded a1 a2 a3 => Sys2Proof.Machine.execCompletionDiscarded a1 a2 a3 s
  | .backgroundCompletion a1 a2 a3 a4 => Sys2Proof.Machine.execBackgroundCompletion a1 a2 a3 a4 s
  | .notificationDelivery a1 a2 a3 => Sys2Proof.Machine.execNotificationDelivery a1 a2 a3 s
  | .cmdMbDoorbellSubmit a1 a2 => Sys2Proof.Machine.execCmdMbDoorbellSubmit a1 a2 s
  | .cmdMbReplyTaken a1 a2 => Sys2Proof.Machine.execCmdMbReplyTaken a1 a2 s
  | .cmdRankCommit a1 => Sys2Proof.Machine.execCmdRankCommit a1 s
  | .streamApertureWrite a1 a2 => Sys2Proof.Machine.execStreamApertureWrite a1 a2 s
  | .registerWrite a1 a2 => Sys2Proof.Machine.execRegisterWrite a1 a2 s
  | .registerPairLowRead a1 => Sys2Proof.Machine.execRegisterPairLowRead a1 s
  | .hubControlRequest a1 => Sys2Proof.Machine.execHubControlRequest a1 s
  | .cfgBegin a1 => Sys2Proof.Machine.execCfgBegin a1 s
  | .cfgData a1 => Sys2Proof.Machine.execCfgData a1 s
  | .cfgEnd a1 => Sys2Proof.Machine.execCfgEnd a1 s
  | .cfgAbort a1 => Sys2Proof.Machine.execCfgAbort a1 s
  | .cfgBoot a1 => Sys2Proof.Machine.execCfgBoot a1 s
  | .cfgReleaseSet a1 => Sys2Proof.Machine.execCfgReleaseSet a1 s
  | .cfgStatus a1 => Sys2Proof.Machine.execCfgStatus a1 s
  | .bootLoadStart => Sys2Proof.Machine.execBootLoadStart s
  | .imageHeaderReceived => Sys2Proof.Machine.execImageHeaderReceived s
  | .imageChunkReceived => Sys2Proof.Machine.execImageChunkReceived s
  | .imageTrailerReceived => Sys2Proof.Machine.execImageTrailerReceived s
  | .imageIdleTimeout => Sys2Proof.Machine.execImageIdleTimeout s
  | .slabInitDone => Sys2Proof.Machine.execSlabInitDone s
  | .stagedReleaseStep => Sys2Proof.Machine.execStagedReleaseStep s
  | .fabSeamRepair a1 => Sys2Proof.Machine.execFabSeamRepair a1 s
  | .fabStatus a1 => Sys2Proof.Machine.execFabStatus a1 s
  | .ffUpdate a1 a2 => Sys2Proof.Machine.execFfUpdate a1 a2 s
  | .lutRamWrite a1 a2 a3 a4 a5 a6 => Sys2Proof.Machine.execLutRamWrite a1 a2 a3 a4 a5 a6 s
  | .shiftRegisterShift a1 a2 a3 a4 => Sys2Proof.Machine.execShiftRegisterShift a1 a2 a3 a4 s
  | .slabPortAccess a1 a2 a3 a4 => Sys2Proof.Machine.execSlabPortAccess a1 a2 a3 a4 s
  | .copingWindowAccess a1 => Sys2Proof.Machine.execCopingWindowAccess a1 s
  | .scrubTick a1 => Sys2Proof.Machine.execScrubTick a1 s
  | .throttleSample a1 => Sys2Proof.Machine.execThrottleSample a1 s
  | .cpgCntClear a1 => Sys2Proof.Machine.execCpgCntClear a1 s
  | .cpgScrubSet a1 => Sys2Proof.Machine.execCpgScrubSet a1 s
  | .cpgStatus a1 => Sys2Proof.Machine.execCpgStatus a1 s
  | .tqRequest a1 => Sys2Proof.Machine.execTqRequest a1 s
  | .trResponse a1 a2 a3 a4 a5 => Sys2Proof.Machine.execTrResponse a1 a2 a3 a4 a5 s
  | .iqRequest a1 a2 a3 a4 a5 a6 a7 a8 => Sys2Proof.Machine.execIqRequest a1 a2 a3 a4 a5 a6 a7 a8 s
  | .irResponse a1 => Sys2Proof.Machine.execIrResponse a1 s
  | .capTake a1 => Sys2Proof.Machine.execCapTake a1 s
  | .capRestore a1 => Sys2Proof.Machine.execCapRestore a1 s
  | .capReadback a1 => Sys2Proof.Machine.execCapReadback a1 s
  | .capTraceSet a1 => Sys2Proof.Machine.execCapTraceSet a1 s
  | .capTriggerSet a1 => Sys2Proof.Machine.execCapTriggerSet a1 s
  | .capClockRun a1 => Sys2Proof.Machine.execCapClockRun a1 s
  | .capStatus a1 => Sys2Proof.Machine.execCapStatus a1 s
  | .captureEdge a1 => Sys2Proof.Machine.execCaptureEdge a1 s
  | .captureDrainDone => Sys2Proof.Machine.execCaptureDrainDone s
  | .restoreLoadDone => Sys2Proof.Machine.execRestoreLoadDone s
  | .dutStop a1 => Sys2Proof.Machine.execDutStop a1 s
  | .dutRestart => Sys2Proof.Machine.execDutRestart s
  | .traceSample a1 => Sys2Proof.Machine.execTraceSample a1 s
  | .traceBlockWrite a1 => Sys2Proof.Machine.execTraceBlockWrite a1 s
  | .triggerSample a1 a2 a3 => Sys2Proof.Machine.execTriggerSample a1 a2 a3 s
  | .triggerFired a1 => Sys2Proof.Machine.execTriggerFired a1 s
  | .beatEdge a1 a2 => Sys2Proof.Machine.execBeatEdge a1 a2 s
  | .beatFrameReceived a1 a2 a3 => Sys2Proof.Machine.execBeatFrameReceived a1 a2 a3 s
  | .nakReceived a1 a2 a3 => Sys2Proof.Machine.execNakReceived a1 a2 a3 s
  | .replayTimerExpiry a1 => Sys2Proof.Machine.execReplayTimerExpiry a1 s
  | .bondTimeAlign a1 => Sys2Proof.Machine.execBondTimeAlign a1 s
  | .domainOpReceived a1 a2 => Sys2Proof.Machine.execDomainOpReceived a1 a2 s
  | .groupAckTimeout a1 => Sys2Proof.Machine.execGroupAckTimeout a1 s
  | .resumeWindowEnd => Sys2Proof.Machine.execResumeWindowEnd s
  | .holdFrameReceived a1 => Sys2Proof.Machine.execHoldFrameReceived a1 s
  | .resumeFrameReceived a1 => Sys2Proof.Machine.execResumeFrameReceived a1 s
  | .peerHoldTimeout a1 => Sys2Proof.Machine.execPeerHoldTimeout a1 s
  | .leaveReceived a1 a2 => Sys2Proof.Machine.execLeaveReceived a1 a2 s
  | .tunnelRequestArrived a1 a2 a3 => Sys2Proof.Machine.execTunnelRequestArrived a1 a2 a3 s
  | .tunnelResponseArrived a1 a2 => Sys2Proof.Machine.execTunnelResponseArrived a1 a2 s
  | .tunnelTimeout a1 a2 => Sys2Proof.Machine.execTunnelTimeout a1 a2 s
  | .relayTimeout => Sys2Proof.Machine.execRelayTimeout s
  | .bndDomainSet a1 => Sys2Proof.Machine.execBndDomainSet a1 s
  | .bndTrain a1 => Sys2Proof.Machine.execBndTrain a1 s
  | .bndWindowSet a1 => Sys2Proof.Machine.execBndWindowSet a1 s
  | .bndResumeSet a1 => Sys2Proof.Machine.execBndResumeSet a1 s
  | .bndRelay a1 => Sys2Proof.Machine.execBndRelay a1 s
  | .bndStatus a1 => Sys2Proof.Machine.execBndStatus a1 s
  | .bndTrainDone a1 a2 a3 a4 a5 => Sys2Proof.Machine.execBndTrainDone a1 a2 a3 a4 a5 s
  | .laneLockLost a1 => Sys2Proof.Machine.execLaneLockLost a1 s
  | .laneRetrainDone a1 a2 => Sys2Proof.Machine.execLaneRetrainDone a1 a2 s
  | .refCheck a1 a2 a3 => Sys2Proof.Machine.execRefCheck a1 a2 a3 s
  | .bringupSetReceived a1 a2 a3 => Sys2Proof.Machine.execBringupSetReceived a1 a2 a3 s
  | .bringupTimeout a1 => Sys2Proof.Machine.execBringupTimeout a1 s
  | .trainingBlocksDone a1 => Sys2Proof.Machine.execTrainingBlocksDone a1 s
  | .blockLockChange a1 a2 => Sys2Proof.Machine.execBlockLockChange a1 a2 s
  | .prbsCheckerLock a1 a2 => Sys2Proof.Machine.execPrbsCheckerLock a1 a2 s
  | .eyeScanDone a1 a2 => Sys2Proof.Machine.execEyeScanDone a1 a2 s
  | .lnsConfig a1 => Sys2Proof.Machine.execLnsConfig a1 s
  | .lnsLoop a1 => Sys2Proof.Machine.execLnsLoop a1 s
  | .lnsPrbs a1 => Sys2Proof.Machine.execLnsPrbs a1 s
  | .lnsEyeScan a1 => Sys2Proof.Machine.execLnsEyeScan a1 s
  | .lnsStatus a1 => Sys2Proof.Machine.execLnsStatus a1 s
  | .perstAsserted a1 => Sys2Proof.Machine.execPerstAsserted a1 s
  | .pcieLinkUp a1 a2 a3 a4 => Sys2Proof.Machine.execPcieLinkUp a1 a2 a3 a4 s
  | .pcieLinkDown a1 a2 => Sys2Proof.Machine.execPcieLinkDown a1 a2 s
  | .pcieRecoveryRetrain a1 a2 => Sys2Proof.Machine.execPcieRecoveryRetrain a1 a2 s
  | .bar4Request a1 a2 a3 a4 a5 a6 a7 a8 => Sys2Proof.Machine.execBar4Request a1 a2 a3 a4 a5 a6 a7 a8 s
  | .hostWindowRequest a1 a2 => Sys2Proof.Machine.execHostWindowRequest a1 a2 s
  | .hostWindowTimeout a1 => Sys2Proof.Machine.execHostWindowTimeout a1 s
  | .ethPortStateChange a1 a2 a3 => Sys2Proof.Machine.execEthPortStateChange a1 a2 a3 s
  | .groutRequest a1 => Sys2Proof.Machine.execGroutRequest a1 s
  | .groutResponse a1 => Sys2Proof.Machine.execGroutResponse a1 s
  | .roundStart => Sys2Proof.Machine.execRoundStart s
  | .deadTarget a1 a2 => Sys2Proof.Machine.execDeadTarget a1 a2 s
  | .fenceReq a1 a2 => Sys2Proof.Machine.execFenceReq a1 a2 s
  | .drained a1 a2 => Sys2Proof.Machine.execDrained a1 a2 s
  | .fenced a1 => Sys2Proof.Machine.execFenced a1 s
  | .fenceDrainTimeout a1 => Sys2Proof.Machine.execFenceDrainTimeout a1 s
  | .grtFence a1 => Sys2Proof.Machine.execGrtFence a1 s
  | .grtUnfence a1 => Sys2Proof.Machine.execGrtUnfence a1 s
  | .grtSlotSet a1 => Sys2Proof.Machine.execGrtSlotSet a1 s
  | .grtProbeSet a1 => Sys2Proof.Machine.execGrtProbeSet a1 s
  | .grtStatus a1 => Sys2Proof.Machine.execGrtStatus a1 s
  | .engineWindowAccess a1 => Sys2Proof.Machine.execEngineWindowAccess a1 s
  | .globalLoadResponse a1 a2 a3 a4 => Sys2Proof.Machine.execGlobalLoadResponse a1 a2 a3 a4 s
  | .storePerform a1 => Sys2Proof.Machine.execStorePerform a1 s
  | .storeResponse a1 a2 => Sys2Proof.Machine.execStoreResponse a1 a2 s
  | .exceptionEntry a1 a2 => Sys2Proof.Machine.execExceptionEntry a1 a2 s
  | .timerMatch a1 => Sys2Proof.Machine.execTimerMatch a1 s
  | .dmaGo a1 => Sys2Proof.Machine.execDmaGo a1 s
  | .dmaAbort a1 => Sys2Proof.Machine.execDmaAbort a1 s
  | .dmaPacketResponse a1 a2 a3 a4 => Sys2Proof.Machine.execDmaPacketResponse a1 a2 a3 a4 s
  | .engIrqRaise a1 a2 => Sys2Proof.Machine.execEngIrqRaise a1 a2 s
  | .engMbDoorbell a1 a2 => Sys2Proof.Machine.execEngMbDoorbell a1 a2 s
  | .engMbAck a1 a2 => Sys2Proof.Machine.execEngMbAck a1 a2 s
  | .haltGroupRequest a1 => Sys2Proof.Machine.execHaltGroupRequest a1 s
  | .engineStopTimeout a1 => Sys2Proof.Machine.execEngineStopTimeout a1 s
  | .engLoad a1 => Sys2Proof.Machine.execEngLoad a1 s
  | .engStart a1 => Sys2Proof.Machine.execEngStart a1 s
  | .engStop a1 => Sys2Proof.Machine.execEngStop a1 s
  | .engStatus a1 => Sys2Proof.Machine.execEngStatus a1 s
  | .add a1 a2 a3 a4 => Sys2Proof.Machine.execAdd a1 a2 a3 a4 s
  | .sub a1 a2 a3 a4 => Sys2Proof.Machine.execSub a1 a2 a3 a4 s
  | .and a1 a2 a3 a4 => Sys2Proof.Machine.execAnd a1 a2 a3 a4 s
  | .or a1 a2 a3 a4 => Sys2Proof.Machine.execOr a1 a2 a3 a4 s
  | .xor a1 a2 a3 a4 => Sys2Proof.Machine.execXor a1 a2 a3 a4 s
  | .shl a1 a2 a3 a4 => Sys2Proof.Machine.execShl a1 a2 a3 a4 s
  | .shr a1 a2 a3 a4 => Sys2Proof.Machine.execShr a1 a2 a3 a4 s
  | .asr a1 a2 a3 a4 => Sys2Proof.Machine.execAsr a1 a2 a3 a4 s
  | .slt a1 a2 a3 a4 => Sys2Proof.Machine.execSlt a1 a2 a3 a4 s
  | .sltu a1 a2 a3 a4 => Sys2Proof.Machine.execSltu a1 a2 a3 a4 s
  | .min a1 a2 a3 a4 => Sys2Proof.Machine.execMin a1 a2 a3 a4 s
  | .max a1 a2 a3 a4 => Sys2Proof.Machine.execMax a1 a2 a3 a4 s
  | .abs a1 a2 a3 => Sys2Proof.Machine.execAbs a1 a2 a3 s
  | .neg a1 a2 a3 => Sys2Proof.Machine.execNeg a1 a2 a3 s
  | .adds a1 a2 a3 a4 => Sys2Proof.Machine.execAdds a1 a2 a3 a4 s
  | .subs a1 a2 a3 a4 => Sys2Proof.Machine.execSubs a1 a2 a3 a4 s
  | .mul a1 a2 a3 a4 => Sys2Proof.Machine.execMul a1 a2 a3 a4 s
  | .mulh a1 a2 a3 a4 => Sys2Proof.Machine.execMulh a1 a2 a3 a4 s
  | .mulhu a1 a2 a3 a4 => Sys2Proof.Machine.execMulhu a1 a2 a3 a4 s
  | .cmp a1 a2 a3 => Sys2Proof.Machine.execCmp a1 a2 a3 s
  | .exp a1 a2 a3 => Sys2Proof.Machine.execExp a1 a2 a3 s
  | .expmin a1 a2 a3 => Sys2Proof.Machine.execExpmin a1 a2 a3 s
  | .norm a1 a2 a3 a4 => Sys2Proof.Machine.execNorm a1 a2 a3 a4 s
  | .add2h a1 a2 a3 a4 => Sys2Proof.Machine.execAdd2h a1 a2 a3 a4 s
  | .sub2h a1 a2 a3 a4 => Sys2Proof.Machine.execSub2h a1 a2 a3 a4 s
  | .hadd2h a1 a2 a3 a4 => Sys2Proof.Machine.execHadd2h a1 a2 a3 a4 s
  | .hsub2h a1 a2 a3 a4 => Sys2Proof.Machine.execHsub2h a1 a2 a3 a4 s
  | .bf2h a1 a2 a3 a4 => Sys2Proof.Machine.execBf2h a1 a2 a3 a4 s
  | .hbf2h a1 a2 a3 a4 => Sys2Proof.Machine.execHbf2h a1 a2 a3 a4 s
  | .expq a1 a2 a3 => Sys2Proof.Machine.execExpq a1 a2 a3 s
  | .expminq a1 a2 a3 => Sys2Proof.Machine.execExpminq a1 a2 a3 s
  | .addi a1 a2 a3 a4 => Sys2Proof.Machine.execAddi a1 a2 a3 a4 s
  | .andi a1 a2 a3 a4 => Sys2Proof.Machine.execAndi a1 a2 a3 a4 s
  | .ori a1 a2 a3 a4 => Sys2Proof.Machine.execOri a1 a2 a3 a4 s
  | .xori a1 a2 a3 a4 => Sys2Proof.Machine.execXori a1 a2 a3 a4 s
  | .slti a1 a2 a3 a4 => Sys2Proof.Machine.execSlti a1 a2 a3 a4 s
  | .lui a1 a2 a3 => Sys2Proof.Machine.execLui a1 a2 a3 s
  | .shi a1 a2 a3 a4 => Sys2Proof.Machine.execShi a1 a2 a3 a4 s
  | .ld a1 a2 a3 => Sys2Proof.Machine.execLd a1 a2 a3 s
  | .st a1 a2 a3 => Sys2Proof.Machine.execSt a1 a2 a3 s
  | .mvp a1 a2 a3 => Sys2Proof.Machine.execMvp a1 a2 a3 s
  | .mvg a1 a2 a3 => Sys2Proof.Machine.execMvg a1 a2 a3 s
  | .mvm a1 a2 a3 => Sys2Proof.Machine.execMvm a1 a2 a3 s
  | .mvmg a1 a2 a3 => Sys2Proof.Machine.execMvmg a1 a2 a3 s
  | .addp a1 a2 a3 => Sys2Proof.Machine.execAddp a1 a2 a3 s
  | .mvs a1 a2 a3 => Sys2Proof.Machine.execMvs a1 a2 a3 s
  | .mvsg a1 a2 a3 => Sys2Proof.Machine.execMvsg a1 a2 a3 s
  | .br a1 a2 a3 => Sys2Proof.Machine.execBr a1 a2 a3 s
  | .jmp a1 a2 => Sys2Proof.Machine.execJmp a1 a2 s
  | .call a1 a2 => Sys2Proof.Machine.execCall a1 a2 s
  | .jr a1 a2 => Sys2Proof.Machine.execJr a1 a2 s
  | .callr a1 a2 => Sys2Proof.Machine.execCallr a1 a2 s
  | .rete a1 => Sys2Proof.Machine.execRete a1 s
  | .rep a1 a2 a3 a4 => Sys2Proof.Machine.execRep a1 a2 a3 a4 s
  | .repi a1 a2 a3 a4 => Sys2Proof.Machine.execRepi a1 a2 a3 a4 s
  | .macw a1 a2 a3 a4 => Sys2Proof.Machine.execMacw a1 a2 a3 a4 s
  | .msuw a1 a2 a3 a4 => Sys2Proof.Machine.execMsuw a1 a2 a3 a4 s
  | .mulw a1 a2 a3 a4 => Sys2Proof.Machine.execMulw a1 a2 a3 a4 s
  | .macuw a1 a2 a3 a4 => Sys2Proof.Machine.execMacuw a1 a2 a3 a4 s
  | .macq a1 a2 a3 a4 => Sys2Proof.Machine.execMacq a1 a2 a3 a4 s
  | .msuq a1 a2 a3 a4 => Sys2Proof.Machine.execMsuq a1 a2 a3 a4 s
  | .mulq a1 a2 a3 a4 => Sys2Proof.Machine.execMulq a1 a2 a3 a4 s
  | .cmul a1 a2 a3 a4 => Sys2Proof.Machine.execCmul a1 a2 a3 a4 s
  | .cmac a1 a2 a3 a4 => Sys2Proof.Machine.execCmac a1 a2 a3 a4 s
  | .cmulj a1 a2 a3 a4 => Sys2Proof.Machine.execCmulj a1 a2 a3 a4 s
  | .cmacj a1 a2 a3 a4 => Sys2Proof.Machine.execCmacj a1 a2 a3 a4 s
  | .clra a1 a2 => Sys2Proof.Machine.execClra a1 a2 s
  | .lda a1 a2 a3 => Sys2Proof.Machine.execLda a1 a2 a3 s
  | .ext a1 a2 a3 a4 => Sys2Proof.Machine.execExt a1 a2 a3 a4 s
  | .exth a1 a2 a3 a4 => Sys2Proof.Machine.execExth a1 a2 a3 a4 s
  | .ext2 a1 a2 a3 a4 => Sys2Proof.Machine.execExt2 a1 a2 a3 a4 s
  | .expa a1 a2 a3 => Sys2Proof.Machine.execExpa a1 a2 a3 s
  | .norma a1 a2 a3 => Sys2Proof.Machine.execNorma a1 a2 a3 s
  | .adda a1 a2 a3 => Sys2Proof.Machine.execAdda a1 a2 a3 s
  | .suba a1 a2 a3 => Sys2Proof.Machine.execSuba a1 a2 a3 s
  | .mvax a1 a2 a3 a4 => Sys2Proof.Machine.execMvax a1 a2 a3 a4 s
  | .sha a1 a2 a3 => Sys2Proof.Machine.execSha a1 a2 a3 s
  | .nop a1 => Sys2Proof.Machine.execNop a1 s
  | .wait a1 => Sys2Proof.Machine.execWait a1 s
  | .fenceSl a1 => Sys2Proof.Machine.execFenceSl a1 s
  | .fenceDma a1 => Sys2Proof.Machine.execFenceDma a1 s
  | .fenceI a1 => Sys2Proof.Machine.execFenceI a1 s
  | .accessPrefixPair a1 a2 a3 a4 a5 a6 => Sys2Proof.Machine.execAccessPrefixPair a1 a2 a3 a4 a5 a6 s
  | .dramPortRequest a1 a2 => Sys2Proof.Machine.execDramPortRequest a1 a2 s
  | .dramIssue a1 a2 a3 a4 => Sys2Proof.Machine.execDramIssue a1 a2 a3 a4 s
  | .dramRefresh a1 a2 => Sys2Proof.Machine.execDramRefresh a1 a2 s
  | .mr4Poll a1 a2 a3 => Sys2Proof.Machine.execMr4Poll a1 a2 a3 s
  | .dramRecentre a1 a2 => Sys2Proof.Machine.execDramRecentre a1 a2 s
  | .dramTraining a1 => Sys2Proof.Machine.execDramTraining a1 s
  | .regionInitDone a1 a2 => Sys2Proof.Machine.execRegionInitDone a1 a2 s
  | .drcTrain a1 => Sys2Proof.Machine.execDrcTrain a1 s
  | .drcStatus a1 => Sys2Proof.Machine.execDrcStatus a1 s
  | .mekRegionSet a1 => Sys2Proof.Machine.execMekRegionSet a1 s
  | .mekStatus a1 => Sys2Proof.Machine.execMekStatus a1 s
  | .secKeyProvision a1 => Sys2Proof.Machine.execSecKeyProvision a1 s
  | .secKeyErase a1 => Sys2Proof.Machine.execSecKeyErase a1 s
  | .secModeSet a1 => Sys2Proof.Machine.execSecModeSet a1 s
  | .secDebugUnlock a1 => Sys2Proof.Machine.execSecDebugUnlock a1 s
  | .secDebugLock a1 => Sys2Proof.Machine.execSecDebugLock a1 s
  | .secPolicySet a1 => Sys2Proof.Machine.execSecPolicySet a1 s
  | .secStatus a1 => Sys2Proof.Machine.execSecStatus a1 s
  | .aclWrite a1 => Sys2Proof.Machine.execAclWrite a1 s
  | .aclRead a1 => Sys2Proof.Machine.execAclRead a1 s
  | .aclInvalidate a1 => Sys2Proof.Machine.execAclInvalidate a1 s
  | .aclSweep => Sys2Proof.Machine.execAclSweep s
  | .reconcileSweep => Sys2Proof.Machine.execReconcileSweep s
  | .guestRequest a1 => Sys2Proof.Machine.execGuestRequest a1 s
  | .gstFirewallSet a1 => Sys2Proof.Machine.execGstFirewallSet a1 s
  | .gstIsolate a1 => Sys2Proof.Machine.execGstIsolate a1 s
  | .pwrModeSet a1 => Sys2Proof.Machine.execPwrModeSet a1 s
  | .pwrTrimSet a1 => Sys2Proof.Machine.execPwrTrimSet a1 s
  | .pwrPolicySet a1 => Sys2Proof.Machine.execPwrPolicySet a1 s
  | .pwrIslandSet a1 => Sys2Proof.Machine.execPwrIslandSet a1 s
  | .islandPowerUpDone a1 => Sys2Proof.Machine.execIslandPowerUpDone a1 s
  | .pwrReset a1 => Sys2Proof.Machine.execPwrReset a1 s
  | .pwrStatus a1 => Sys2Proof.Machine.execPwrStatus a1 s
  | .clkSourceSet a1 => Sys2Proof.Machine.execClkSourceSet a1 s
  | .clkOutSet a1 => Sys2Proof.Machine.execClkOutSet a1 s
  | .clkStatus a1 => Sys2Proof.Machine.execClkStatus a1 s
  | .clkGateWrite a1 => Sys2Proof.Machine.execClkGateWrite a1 s
  | .dbgFreezeSet a1 => Sys2Proof.Machine.execDbgFreezeSet a1 s
  | .dbgEngControl a1 => Sys2Proof.Machine.execDbgEngControl a1 s
  | .engineHalt a1 a2 => Sys2Proof.Machine.execEngineHalt a1 a2 s
  | .debugPortReset a1 => Sys2Proof.Machine.execDebugPortReset a1 s
  | .trstAsserted => Sys2Proof.Machine.execTrstAsserted s
  | .extest => Sys2Proof.Machine.execExtest s
  | .samplePreload a1 => Sys2Proof.Machine.execSamplePreload a1 s
  | .idcode => Sys2Proof.Machine.execIdcode s
  | .clamp => Sys2Proof.Machine.execClamp s
  | .highz => Sys2Proof.Machine.execHighz s
  | .extestPulse => Sys2Proof.Machine.execExtestPulse s
  | .extestTrain => Sys2Proof.Machine.execExtestTrain s
  | .dbgStatus => Sys2Proof.Machine.execDbgStatus s
  | .cmdData => Sys2Proof.Machine.execCmdData s
  | .groutAcc => Sys2Proof.Machine.execGroutAcc s
  | .dbgReset => Sys2Proof.Machine.execDbgReset s
  | .bypass => Sys2Proof.Machine.execBypass s
  | .statusWordCapture => Sys2Proof.Machine.execStatusWordCapture s
  | .cmdDataWord a1 a2 => Sys2Proof.Machine.execCmdDataWord a1 a2 s
  | .groutAccStart a1 => Sys2Proof.Machine.execGroutAccStart a1 s
  | .twoWireFrame a1 a2 a3 => Sys2Proof.Machine.execTwoWireFrame a1 a2 a3 s
  | .twoWireReset => Sys2Proof.Machine.execTwoWireReset s
  | .evrRead a1 => Sys2Proof.Machine.execEvrRead a1 s
  | .evrHead a1 => Sys2Proof.Machine.execEvrHead a1 s
  | .evrClear a1 => Sys2Proof.Machine.execEvrClear a1 s
  | .evrRateSet a1 => Sys2Proof.Machine.execEvrRateSet a1 s
  | .recordProgram a1 a2 => Sys2Proof.Machine.execRecordProgram a1 a2 s
  | .pageErase => Sys2Proof.Machine.execPageErase s
  | .pageExchanged => Sys2Proof.Machine.execPageExchanged s
  | .rateSummary a1 => Sys2Proof.Machine.execRateSummary a1 s
  | .recordsLost => Sys2Proof.Machine.execRecordsLost s
  | .returnPrepare a1 => Sys2Proof.Machine.execReturnPrepare a1 s
  | .returnUnlock a1 => Sys2Proof.Machine.execReturnUnlock a1 s
  | .crossbarPinWrite a1 a2 => Sys2Proof.Machine.execCrossbarPinWrite a1 a2 s
  | .resetNReleased => Sys2Proof.Machine.execResetNReleased s
  | .thermalTripRelease => Sys2Proof.Machine.execThermalTripRelease s
  | .relayReplyReceived a1 a2 => Sys2Proof.Machine.execRelayReplyReceived a1 a2 s
  | .guestLimiterRefill => Sys2Proof.Machine.execGuestLimiterRefill s
  | .pcieConfigWrite a1 a2 => Sys2Proof.Machine.execPcieConfigWrite a1 a2 s

end Sys2Proof.Machine
end

