-- ==== Sys2Proof/Machine/Step.lean ====
section
/-!
DEFINITION. One step: the command at the front of the queue runs on the state with the queue's rest; on an
empty queue the block idles for one tick of the device time base (assumption log 5).
-/
namespace Sys2Proof.Machine
open Sys2Proof

/-- One command of the queue; a command whose operands are ill formed is refused. -/
def runCommand (c : Instr) (s : State) : Host.Outcome State Fault Refusal :=
  if c.wf then exec c s else .refused .illFormed

/-- The step of the block. -/
def step (s : State) : Host.Outcome State Fault Refusal :=
  match s.pending with
  | [] => .next { s with time := s.time + 1 }
  | c :: rest => runCommand c { s with pending := rest }

/-- The state with the command that a word spells at the front of its queue. No row has bits, so no word
spells one. -/
def State.withFetchWord (s : State) (nbits w : Nat) : State :=
  match decodeTableWord nbits w with
  | none => s
  | some c => { s with pending := c :: s.pending }

end Sys2Proof.Machine
end

