-- ==== Sys2Proof/Safety.lean ====
section
/-!
DEFINITION. What counts as a safe outcome, and the terms in which the claims are stated: the pieces of the state a
step leaves as they were, the conditions under which a command is admitted or an engine issues, and the shapes of a
result.
-/
namespace Sys2Proof.Machine
open Sys2Proof

/-- The outcome is a next state. -/
def goesOn : Host.Outcome State Fault Refusal → Bool
  | .next _ => true
  | .fault _ => false
  | .refused _ => false

/-- The step from `s` goes on. -/
def State.safe (s : State) : Bool := goesOn (step s)

/-! ### What a command leaves as it was -/

/-- The pieces of the state. -/
inductive Piece where
  | part | dev | intake | fab | coping | cfg | cap | bond | lanes | grout | engines | dram | sec | gst | power | clk
  | dbg | evr | svp | latches | time | freeNo | pending
deriving DecidableEq, Repr

/-- A piece is the same in two states. -/
def Piece.same (s t : State) : Piece → Prop
  | .part => t.part = s.part | .dev => t.dev = s.dev | .intake => t.intake = s.intake | .fab => t.fab = s.fab
  | .coping => t.coping = s.coping | .cfg => t.cfg = s.cfg | .cap => t.cap = s.cap | .bond => t.bond = s.bond
  | .lanes => t.lanes = s.lanes | .grout => t.grout = s.grout | .engines => t.engines = s.engines
  | .dram => t.dram = s.dram | .sec => t.sec = s.sec | .gst => t.gst = s.gst | .power => t.power = s.power
  | .clk => t.clk = s.clk | .dbg => t.dbg = s.dbg | .evr => t.evr = s.evr | .svp => t.svp = s.svp
  | .latches => t.latches = s.latches | .time => t.time = s.time | .freeNo => t.freeNo = s.freeNo
  | .pending => t.pending = s.pending

/-- Every piece but those listed is the same. -/
def KeptBut (ps : List Piece) (s t : State) : Prop := ∀ p, p ∉ ps → p.same s t

/-! ### Engines (11, 12) -/

/-- Engine `e` issues the instruction at its pc: it executes, no store error is to be taken first (R387), the pc lies in
P memory (R376), and no comparator stops the fetch (R394). -/
def Issues (e : Nat) (s : State) : Prop :=
  s.executes e = true ∧ (s.eng e).storeErr = false ∧ (s.eng e).pc.toNat < 0x20000 ∧
  (((s.eng e).cmpHits [0] (s.eng e).pc).getLsbD 1 && s.haltPermitted) = false ∧
  ((s.eng e).cmpHits [0] (s.eng e).pc).getLsbD 0 = false

/-- What an instruction does to each bit of sr: the value written and its poison, or nothing. -/
abbrev FlagRule := Nat → Option (Bool × Bool)

/-- No flag is written. -/
def noFlags : FlagRule := fun _ => none

/-- z and n follow a result (R415). -/
def resultFlags (v : W32) (p : Bool) (rest : FlagRule) : FlagRule := fun k =>
  if k = 0 then some (v == 0, p) else if k = 1 then some (v.msb, p) else rest k

/-- Logical operations and shifts: z and n follow the result, v is cleared, c stays (R415). -/
def logicFlags (v : W32) (p : Bool) : FlagRule := resultFlags v p fun k => if k = 3 then some (false, p) else none

/-- Where a result saturates, v is set and so is the sticky sat, which keeps an earlier poison (R415). -/
def satFlags (x : Engine) (p : Bool) (rest : FlagRule) : FlagRule := fun k =>
  if k = 3 then some (true, p) else if k = 4 then some (true, p || x.fp.getLsbD 4) else rest k

/-- An exact result leaves the `w`-bit signed range. -/
def leaves (w : Nat) (r : Int) : Bool := r < -2 ^ (w - 1) || 2 ^ (w - 1) ≤ r

/-- The end of the signed 32-bit range on a value's side. -/
def rangeEnd (r : Int) : W32 := if r < 0 then 0x80000000 else 0x7FFFFFFF

/-- sr and the poison of its flags move by a rule and nowhere else. -/
def FlagsMove (x y : Engine) (r : FlagRule) : Prop :=
  ∀ k, k < 32 → (y.sr.getLsbD k, y.fp.getLsbD k) = (r k).getD (x.sr.getLsbD k, x.fp.getLsbD k)

/-- The number of redundant sign bits of `v`, of `w` bits, is `n`: just so many bits below the sign bit equal it (R416). -/
def SignBitsAre (w v n : Nat) : Prop :=
  n < w ∧ (∀ i, i ≤ n → v.testBit (w - 1 - i) = v.testBit (w - 1)) ∧
  (n + 1 < w → v.testBit (w - 2 - n) ≠ v.testBit (w - 1))

/-- An exact value divided by 2^n and rounded: 0 toward minus infinity, 1 half up, 2 half to even (T12.3). -/
def roundOf (rnd : Nat) (v : Int) (n : Nat) : Int :=
  let q := v / 2 ^ n
  let r := v % 2 ^ n
  if rnd ≠ 0 ∧ (2 ^ n < 2 * r ∨ (2 * r = 2 ^ n ∧ (rnd = 1 ∨ q % 2 = 1))) then q + 1 else q

/-- The rounding mode of sr, 3 decoded as 0. -/
def rndOf (x : Engine) : Nat :=
  if (x.sr.extractLsb' 28 2).toNat = 3 then 0 else (x.sr.extractLsb' 28 2).toNat

/-- A product of two `w`-bit signed values under sr.frac: shifted left by one bit, but for -1 times -1, which gives the
greatest value (R413). -/
def productOf (frac : Bool) (w : Nat) (a b : Int) : Int :=
  if frac then (if a = -2 ^ (w - 1) ∧ b = -2 ^ (w - 1) then 2 ^ (2 * w - 1) - 1 else 2 * (a * b)) else a * b

/-- The one product that sr.frac cannot represent. -/
def productClips (frac : Bool) (w : Nat) (a b : Int) : Bool := frac && a == -2 ^ (w - 1) && b == -2 ^ (w - 1)

/-- A sum in an accumulator: outside 72 bits it saturates under sat_en and wraps otherwise (R411). -/
def accFit (sat : Bool) (r : Int) : BitVec 72 :=
  if leaves 72 r && sat then (if r < 0 then 0x800000000000000000 else 0x7FFFFFFFFFFFFFFFFF) else BitVec.ofInt 72 r

/-- The bits of sr after a sum in an accumulator: v where it left the range, sat and v where something saturated; z, n and
c stay (R411, R413, R415). -/
def accSr (sat : Bool) (r : Int) (clips : Bool) : Nat → Option Bool := fun k =>
  if k = 3 && (leaves 72 r || clips) then some true
  else if k = 4 && ((leaves 72 r && sat) || clips) then some true else none

/-- The instruction completes in sequence: only engine `e` changes, as `P` says of its state before and after, and then
its pc moves on (R418). -/
def RunsTo (i : Instr) (e : Fin 192) (s : State) (P : Engine → Engine → Prop) : Prop :=
  ∃ y, exec i s = .next (s.setEng e fun _ => y.advance 4) ∧ P (s.eng e) y

/-- One g register and the flags of a rule are written; everything else of the engine stays. -/
def WritesG (rd : Nat) (v : W32) (p : Bool) (r : FlagRule) (x y : Engine) : Prop :=
  y.gr rd = { v, p } ∧ (∀ j, j ≠ rd → y.gr j = x.gr j) ∧ FlagsMove x y r ∧
  { y with g := x.g, sr := x.sr, fp := x.fp } = x

/-- The even register of a pair and the one above it are written, and the flags of a rule. -/
def WritesPair (rd : Nat) (lo hi : W32) (p : Bool) (r : FlagRule) (x y : Engine) : Prop :=
  y.gr rd = { v := lo, p } ∧ y.gr (rd + 1) = { v := hi, p } ∧ (∀ j, j ≠ rd → j ≠ rd + 1 → y.gr j = x.gr j) ∧
  FlagsMove x y r ∧ { y with g := x.g, sr := x.sr, fp := x.fp } = x

/-- One accumulator and the flags of a rule are written. -/
def WritesAc (ac : Nat) (v : BitVec 72) (p : Bool) (r : FlagRule) (x y : Engine) : Prop :=
  y.acr ac = { v, p } ∧ (∀ j, j ≠ ac → y.acr j = x.acr j) ∧ FlagsMove x y r ∧
  { y with ac := x.ac, sr := x.sr, fp := x.fp } = x

/-- The bits of sr move by a rule and nowhere else; what poison the flags take is the model's (assumption log 30). -/
def SrMoves (x y : Engine) (r : Nat → Option Bool) : Prop :=
  ∀ k, k < 32 → y.sr.getLsbD k = (r k).getD (x.sr.getLsbD k)

/-- One accumulator and bits of sr are written. -/
def SumsTo (ac : Nat) (v : BitVec 72) (p : Bool) (r : Nat → Option Bool) (x y : Engine) : Prop :=
  y.acr ac = { v, p } ∧ (∀ j, j ≠ ac → y.acr j = x.acr j) ∧ SrMoves x y r ∧ { y with ac := x.ac, sr := x.sr, fp := x.fp } = x

/-- The instruction completes and only engine `e` changes, as `P` says of its state before and after, its pc included. -/
def FlowsTo (i : Instr) (e : Fin 192) (s : State) (P : Engine → Engine → Prop) : Prop :=
  ∃ y, exec i s = .next (s.setEng e fun _ => y) ∧ P (s.eng e) y

/-- The engine is at `target`, one instruction of a step is done, and of the rest only the fields taken from `y` in
`back` differ; what the repeat cache holds is left open. -/
def Jumps (target : W32) (back : Engine → Engine → Engine) (x y : Engine) : Prop :=
  y.pc = target ∧ y.steps = x.steps - 1 ∧ y.haltAsked = (if x.steps = 1 then some 3 else x.haltAsked) ∧
  back x { y with pc := x.pc, cache := x.cache, steps := x.steps, haltAsked := x.haltAsked } = x

/-- An address lies in the body of loop level `k` (R419). -/
def InBody (x : Engine) (k : Nat) (a : W32) : Prop :=
  (SMap.look 0 x.ls k).toNat ≤ a.toNat ∧ a.toNat ≤ (SMap.look 0 x.le k).toNat

/-- The `n` bytes of an engine's memories from `a` on carry no error and no poison. -/
def CleanAt (x : Engine) (a n : Nat) : Prop := ∀ i, i < n → (SMap.look {} x.mem (a + i)).chk = .clean

/-- The little-endian value of `n` bytes of an engine's memories. -/
def memVal (x : Engine) (a n : Nat) : Nat := leNat ((List.range n).map fun i => (SMap.look {} x.mem (a + i)).data)

/-- What a load of `n` bytes writes to its register: a value of 8 bytes to a pair, a shorter one extended with its sign
or with zeros (T12.7). -/
def Loads (rd n : Nat) (sx : Bool) (v : Nat) (p : Bool) (x y : Engine) : Prop :=
  (n = 8 → y.gr rd = { v := BitVec.ofNat 32 v, p } ∧ y.gr (rd + 1) = { v := BitVec.ofNat 32 (v / 2 ^ 32), p }) ∧
  (n ≠ 8 → y.gr rd = { v := if sx then (BitVec.ofNat (8 * n) v).signExtend 32 else BitVec.ofNat 32 v, p }) ∧
  (∀ j, j ≠ rd → (n = 8 → j ≠ rd + 1) → y.gr j = x.gr j)

/-- The engine that executes an instruction of chapter 12; no other command is one. -/
def engineOf : Instr → Option (Fin 192)
  | .add e _ _ _ | .sub e _ _ _ | .and e _ _ _ | .or e _ _ _ | .xor e _ _ _ | .shl e _ _ _ | .shr e _ _ _
  | .asr e _ _ _ | .slt e _ _ _ | .sltu e _ _ _ | .min e _ _ _ | .max e _ _ _ | .abs e _ _ | .neg e _ _
  | .adds e _ _ _ | .subs e _ _ _ | .mul e _ _ _ | .mulh e _ _ _ | .mulhu e _ _ _ | .cmp e _ _ | .exp e _ _
  | .expmin e _ _ | .norm e _ _ _ | .add2h e _ _ _ | .sub2h e _ _ _ | .hadd2h e _ _ _ | .hsub2h e _ _ _
  | .bf2h e _ _ _ | .hbf2h e _ _ _ | .expq e _ _ | .expminq e _ _ | .addi e _ _ _ | .andi e _ _ _
  | .ori e _ _ _ | .xori e _ _ _ | .slti e _ _ _ | .lui e _ _ | .shi e _ _ _ | .ld e _ _ | .st e _ _
  | .mvp e _ _ | .mvg e _ _ | .mvm e _ _ | .mvmg e _ _ | .addp e _ _ | .mvs e _ _ | .mvsg e _ _ | .br e _ _
  | .jmp e _ | .call e _ | .jr e _ | .callr e _ | .rete e | .rep e _ _ _ | .repi e _ _ _ | .macw e _ _ _
  | .msuw e _ _ _ | .mulw e _ _ _ | .macuw e _ _ _ | .macq e _ _ _ | .msuq e _ _ _ | .mulq e _ _ _
  | .cmul e _ _ _ | .cmac e _ _ _ | .cmulj e _ _ _ | .cmacj e _ _ _ | .clra e _ | .lda e _ _ | .ext e _ _ _
  | .exth e _ _ _ | .ext2 e _ _ _ | .expa e _ _ | .norma e _ _ | .adda e _ _ | .suba e _ _ | .mvax e _ _ _
  | .sha e _ _ | .nop e | .wait e | .fenceSl e | .fenceDma e | .fenceI e | .accessPrefixPair e _ _ _ _ _ => some e
  | _ => none

/-! ### The domain graph (08) -/

/-- A path of at most `n` group hops joins two devices (R264). -/
def Within (links : List (BitVec 6 × BitVec 6)) : Nat → BitVec 6 → BitVec 6 → Prop
  | 0, a, b => a = b
  | n + 1, a, b => Within links n a b ∨ ∃ d, Within links n a d ∧ ((d, b) ∈ links ∨ (b, d) ∈ links)

/-! ### Commands of the intake (02) -/

/-- Steps 1 to 8 of Table 2.7 for a packet that its port takes and the arbiter grants: where they all pass, the counter
consumed with its key, and the state the command then executes on; none where the packet is turned away. -/
def admission (card : Card) (c : Cmd) (s : State) : Option (Auth × State) :=
  let p : Packet := { opcode := card.opcode, cmd := c }
  let s := expireHeld s
  if s.admits p then
    let s := granted p (submitted p s)
    if sizeOk card c && flagsOk c && portPermits card c.port s && modePermits card c s &&
        !((s.cport c.port.val).lockedOut && (card.critical || c.trailer)) then
      match checkTrailer card p s with
      | (.inl _, _) => none
      | (.inr auth, s) =>
        let t := if c.lockEnd && s.ownsLock c then { s with intake.lock := none } else s
        if (commonState card c auth s).isNone && (card.param c t).isNone && !lacksLog card c auth t then some (auth, t)
        else none
    else none
  else none

/-- The state a card's execution begins on: a debug command's implicit session is open (14 R476), and a command that may
reply ACCEPTED has its completion entry (R61). -/
def begun (card : Card) (c : Cmd) (auth : Auth) (s : State) : State :=
  let s := openImplicit card c s
  if card.background c then { s with intake.table := s.intake.table ++ [newEntry card c auth] } else s

/-- Wherever the checks pass, the command executes: from the state it begins on to its answer and the state after, as `P`
says, and the answer is given. -/
def Completes (i : Instr) (card : Card) (c : Cmd) (s : State) (P : State → Answer → State → Prop) : Prop :=
  ∀ auth u, admission card c s = some (auth, u) →
    ∃ a t, exec i s = .next (giveAnswer { opcode := card.opcode, cmd := c } auth a t) ∧ P (begun card c auth u) a t

/-- A command that replies OK with data and leaves the part as it was. -/
def Reads (i : Instr) (card : Card) (c : Cmd) (s : State) (data : State → List Byte) : Prop :=
  Completes i card c s fun u a t => a = .reply Status.ok (data u) ∧ t = u

/-- The commands of the Spatu set but RETURN_UNLOCK: their cards and packets. -/
def commandOf : Instr → Option (Card × Cmd)
  | .devIdent c => some (cardDevIdent, c) | .devInventory c => some (cardDevInventory, c)
  | .cmdPoll c => some (cardCmdPoll, c) | .cmdCounterRead c => some (cardCmdCounterRead, c)
  | .cfgBegin c => some (cardCfgBegin, c) | .cfgData c => some (cardCfgData, c)
  | .cfgEnd c => some (cardCfgEnd, c) | .cfgAbort c => some (cardCfgAbort, c)
  | .cfgBoot c => some (cardCfgBoot, c) | .cfgReleaseSet c => some (cardCfgReleaseSet, c)
  | .cfgStatus c => some (cardCfgStatus, c) | .fabSeamRepair c => some (cardFabSeamRepair, c)
  | .fabStatus c => some (cardFabStatus, c) | .cpgScrubSet c => some (cardCpgScrubSet, c)
  | .cpgStatus c => some (cardCpgStatus, c) | .capTake c => some (cardCapTake, c)
  | .capRestore c => some (cardCapRestore, c) | .capReadback c => some (cardCapReadback, c)
  | .capTraceSet c => some (cardCapTraceSet, c) | .capTriggerSet c => some (cardCapTriggerSet, c)
  | .capClockRun c => some (cardCapClockRun, c) | .capStatus c => some (cardCapStatus, c)
  | .bndDomainSet c => some (cardBndDomainSet, c) | .bndTrain c => some (cardBndTrain, c)
  | .bndWindowSet c => some (cardBndWindowSet, c) | .bndResumeSet c => some (cardBndResumeSet, c)
  | .bndRelay c => some (cardBndRelay, c) | .bndStatus c => some (cardBndStatus, c)
  | .lnsConfig c => some (cardLnsConfig, c) | .lnsLoop c => some (cardLnsLoop, c)
  | .lnsPrbs c => some (cardLnsPrbs, c) | .lnsEyeScan c => some (cardLnsEyeScan, c)
  | .lnsStatus c => some (cardLnsStatus, c) | .grtFence c => some (cardGrtFence, c)
  | .grtUnfence c => some (cardGrtUnfence, c) | .grtSlotSet c => some (cardGrtSlotSet, c)
  | .grtProbeSet c => some (cardGrtProbeSet, c) | .grtStatus c => some (cardGrtStatus, c)
  | .engLoad c => some (cardEngLoad, c) | .engStart c => some (cardEngStart, c)
  | .engStop c => some (cardEngStop, c) | .engStatus c => some (cardEngStatus, c)
  | .drcTrain c => some (cardDrcTrain, c) | .drcStatus c => some (cardDrcStatus, c)
  | .mekRegionSet c => some (cardMekRegionSet, c) | .mekStatus c => some (cardMekStatus, c)
  | .secKeyProvision c => some (cardSecKeyProvision, c) | .secKeyErase c => some (cardSecKeyErase, c)
  | .secModeSet c => some (cardSecModeSet, c) | .secDebugUnlock c => some (cardSecDebugUnlock, c)
  | .secDebugLock c => some (cardSecDebugLock, c) | .secPolicySet c => some (cardSecPolicySet, c)
  | .secStatus c => some (cardSecStatus, c) | .aclWrite c => some (cardAclWrite, c)
  | .aclRead c => some (cardAclRead, c) | .aclInvalidate c => some (cardAclInvalidate, c)
  | .gstFirewallSet c => some (cardGstFirewallSet, c) | .gstIsolate c => some (cardGstIsolate, c)
  | .pwrModeSet c => some (cardPwrModeSet, c) | .pwrTrimSet c => some (cardPwrTrimSet, c)
  | .pwrPolicySet c => some (cardPwrPolicySet, c) | .pwrIslandSet c => some (cardPwrIslandSet, c)
  | .pwrReset c => some (cardPwrReset, c) | .pwrStatus c => some (cardPwrStatus, c)
  | .clkSourceSet c => some (cardClkSourceSet, c) | .clkOutSet c => some (cardClkOutSet, c)
  | .clkStatus c => some (cardClkStatus, c) | .dbgFreezeSet c => some (cardDbgFreezeSet, c)
  | .dbgEngControl c => some (cardDbgEngControl, c) | .evrRead c => some (cardEvrRead, c)
  | .evrHead c => some (cardEvrHead, c) | .evrClear c => some (cardEvrClear, c)
  | .evrRateSet c => some (cardEvrRateSet, c) | .returnPrepare c => some (cardReturnPrepare, c)
  | _ => none

end Sys2Proof.Machine
end

