-- ==== Sys2Proof/Certificates/Slice0/Obligations.lean ====
section
/-!
DEFINITION. The statements for the provers.
-/
open Sys2Proof Sys2Proof.Machine

/-! ### The step -/

/-- The block takes the command at the front of its queue and runs exec on it with the queue's rest; a command whose
operands do not exist is refused. On an empty queue it idles for one tick (the model's choice, assumption log 5). -/
def Obligations.StepRunsFront : Prop :=
  ∀ (s : State),
    (∀ c rest, c.wf = true → step { s with pending := c :: rest } = exec c { s with pending := rest }) ∧
    (∀ c rest, c.wf = false → step { s with pending := c :: rest } = .refused .illFormed) ∧
    (s.pending = [] → step s = .next { s with time := s.time + 1 })

/-- A step that goes on takes the front of the queue away and leaves the rest as it was: no command adds to the queue or
takes from it. -/
def Obligations.QueueIsServedInOrder : Prop :=
  ∀ (c : Instr) (rest : List Instr) (s t : State), step { s with pending := c :: rest } = .next t → t.pending = rest

/-- 01 R31 and the fuses, straps, wiring and fitted parts of chapters 01, 06 and 13: no step changes what the part is. -/
def Obligations.PartStaysAsMade : Prop := ∀ (s t : State), step s = .next t → t.part = s.part

/-- 15 T15.8, R526: what reset leaves as the spec gives it: the intake closed with its table empty and every rotation at its
last source (02 R37, R39, R64), no image loaded and every fabric port held, every engine STOPPED at pc 0 (11 R395), no
channel trained, the mode Run with a cap of 1,700 W, IOSC the current source, no debug session, nothing frozen, slab and
engine memories filled with 0 (05 R171), an empty log (17 R563). What the spec leaves open is not in it. -/
def Obligations.ResetState : Prop :=
  let s := State.reset
  s.pending = [] ∧ s.intake.opened = false ∧ s.intake.table = [] ∧ s.intake.lock = none ∧ s.intake.busy = none ∧
  s.intake.last5 = 191 ∧ s.intake.last6 = 63 ∧ s.intake.lastPort = 7 ∧ s.intake.rankActive = 0x24357766 ∧
  s.cfg.loaded = 0 ∧ s.cfg.load = none ∧ s.cap.stopped = 0 ∧ s.cap.dutLines = BitVec.allOnes 64 ∧
  (∀ q : Fin 512, s.portHeld q = true) ∧
  (∀ e : Fin 192, (s.eng e).state = .stopped ∧ (s.eng e).pc = 0 ∧ (s.eng e).timerCmp = 0xFFFFFFFF ∧
    (∀ a, SMap.look {} (s.eng e).mem a = {}) ∧ ∀ j, (s.eng e).gr j = {}) ∧
  (∀ n slab b, s.cop n slab b = {}) ∧ s.dram.installed = 0 ∧ (∀ c : Fin 8, (s.chan c).state ≠ .trained) ∧
  s.power.mode = .run ∧ s.power.cap = 1700 ∧ s.power.engDiv = 0 ∧ s.clk.current = 3 ∧ s.clk.derated = true ∧
  s.sec.session = none ∧ s.dbg.freeze = 0 ∧ s.evr.pending = [] ∧ s.evr.readonly = false ∧ s.bond.state = .unconfigured ∧
  s.bond.resumeMs = 2000 ∧ s.grout.dead = [] ∧ s.grout.flows = [] ∧ s.gst.isolated = false

/-! ### Engine instructions (12) -/

/-- T12.8, T12.9 and R415: AND, OR, XOR, ANDI, ORI and XORI write the bitwise result, the immediate zero-extended; SHL, SHR
and ASR shift by gb[5:0], from 32 on to 0 or to sign copies; SHI shifts by imm[4:0] as imm[7:6] says; NORM shifts left by gb
and right arithmetically by a negative gb (R416). z and n follow the result, v is cleared (NORM taken as a shift, and the
poison of the flags: the model's reading, assumption log 30), and nothing else of the part changes but the pc. T12.9, T12.3
and R415: ADD, SUB and ADDI write ga plus or minus the operand; a sum outside the 32-bit range saturates under sat_en and
wraps otherwise, v says that it left the range, c is the carry of an addition and no borrow for a subtraction; ADDS and SUBS
always saturate, ABS and NEG under sat_en; z and n follow the result, and a saturation sets v and sat. Nothing else changes
but the pc. -/
def Obligations.EngineLogicShiftsAndSums : Prop :=
  (∀ (e : Fin 192) (rd ra rb : Fin 32) (imm : BitVec 16) (s : State), Issues e s →
      let x := s.eng e
      let a := (x.gr ra).v
      let b := (x.gr rb).v
      let pa := (x.gr ra).p
      let p := pa || (x.gr rb).p
      let n := b.toNat % 64
      let k := imm.toNat % 32
      (∀ q ∈ ([(.and e rd ra rb, a &&& b), (.or e rd ra rb, a ||| b), (.xor e rd ra rb, a ^^^ b),
          (.shl e rd ra rb, if n < 32 then a <<< n else 0), (.shr e rd ra rb, if n < 32 then a >>> n else 0),
          (.asr e rd ra rb, if n < 32 then a.sshiftRight n else if a.msb then BitVec.allOnes 32 else 0),
          (.norm e rd ra rb, if b.msb then a.sshiftRight (-b.toInt).toNat else a <<< b.toNat)] : List (Instr × W32)),
        RunsTo q.1 e s (WritesG rd q.2 p (logicFlags q.2 p))) ∧
      (∀ q ∈ ([(.andi e rd ra imm, a &&& imm.zeroExtend 32), (.ori e rd ra imm, a ||| imm.zeroExtend 32),
          (.xori e rd ra imm, a ^^^ imm.zeroExtend 32)] : List (Instr × W32)),
        RunsTo q.1 e s (WritesG rd q.2 pa (logicFlags q.2 pa))) ∧
      (imm &&& 0xFF20 = 0 →
        ∀ q ∈ ([(0, a <<< k), (1, a >>> k), (2, a.sshiftRight k)] : List (Nat × W32)), imm.toNat / 64 = q.1 →
          RunsTo (.shi e rd ra imm) e s (WritesG rd q.2 pa (logicFlags q.2 pa)))) ∧
  (∀ (e : Fin 192) (rd ra rb : Fin 32) (imm : BitVec 16) (s : State), Issues e s →
      let x := s.eng e
      let a := (x.gr ra).v
      let b := (x.gr rb).v
      let c := imm.signExtend 32
      let pa := (x.gr ra).p
      let p := pa || (x.gr rb).p
      let sat := x.sr.getLsbD 30
      (∀ q ∈ ([(.add e rd ra rb, a.toInt + b.toInt, decide (2 ^ 32 ≤ a.toNat + b.toNat), p),
          (.sub e rd ra rb, a.toInt - b.toInt, decide (b.toNat ≤ a.toNat), p),
          (.addi e rd ra imm, a.toInt + c.toInt, decide (2 ^ 32 ≤ a.toNat + c.toNat), pa)] : List (Instr × Int × Bool × Bool)),
        let v := if leaves 32 q.2.1 && sat then rangeEnd q.2.1 else BitVec.ofInt 32 q.2.1
        let sums : FlagRule := fun k =>
          if k = 2 then some (q.2.2.1, q.2.2.2) else if k = 3 then some (leaves 32 q.2.1, q.2.2.2) else none
        RunsTo q.1 e s (WritesG rd v q.2.2.2 (resultFlags v q.2.2.2
          (if leaves 32 q.2.1 && sat then satFlags x q.2.2.2 sums else sums)))) ∧
      (∀ q ∈ ([(.adds e rd ra rb, a.toInt + b.toInt, true, p), (.subs e rd ra rb, a.toInt - b.toInt, true, p),
          (.abs e rd ra, (a.toInt.natAbs : Int), sat, pa), (.neg e rd ra, -a.toInt, sat, pa)] :
          List (Instr × Int × Bool × Bool)),
        let v := if leaves 32 q.2.1 && q.2.2.1 then rangeEnd q.2.1 else BitVec.ofInt 32 q.2.1
        RunsTo q.1 e s (WritesG rd v q.2.2.2 (resultFlags v q.2.2.2
          (if leaves 32 q.2.1 && q.2.2.1 then satFlags x q.2.2.2 noFlags else noFlags)))))

/-- T12.8 and T12.9: SLT and SLTI compare signed and SLTU unsigned into 1 or 0; MIN and MAX pick the smaller and larger
signed value; MUL writes the low 32 bits of the product, MULH and MULHU the high 32 bits of the signed and the unsigned
product; LUI writes the immediate in the upper half. z and n follow the result; c, v and all else stay. R416 and R415: EXP
writes the number of redundant sign bits of ga, from 0 to 31, EXPMIN the smaller of it and gd, EXP.Q and EXPMIN.Q the
smallest count of the four 16-bit lanes of a pair and the smaller of it and gd; no flag changes. CMP writes no register: z,
n, c and v are those of ga - gb. -/
def Obligations.EngineComparesProductsAndCounts : Prop :=
  (∀ (e : Fin 192) (rd ra rb : Fin 32) (imm : BitVec 16) (s : State), Issues e s →
      let x := s.eng e
      let a := (x.gr ra).v
      let b := (x.gr rb).v
      let pa := (x.gr ra).p
      let p := pa || (x.gr rb).p
      (∀ q ∈ ([(.slt e rd ra rb, if a.toInt < b.toInt then 1 else 0, p), (.sltu e rd ra rb, if a.toNat < b.toNat then 1 else 0, p),
          (.min e rd ra rb, if a.toInt < b.toInt then a else b, p), (.max e rd ra rb, if a.toInt < b.toInt then b else a, p),
          (.mul e rd ra rb, BitVec.ofNat 32 (a.toNat * b.toNat), p),
          (.mulh e rd ra rb, (BitVec.ofInt 64 (a.toInt * b.toInt) >>> 32).truncate 32, p),
          (.mulhu e rd ra rb, (BitVec.ofNat 64 (a.toNat * b.toNat) >>> 32).truncate 32, p),
          (.slti e rd ra imm, if a.toInt < (imm.signExtend 32).toInt then 1 else 0, pa),
          (.lui e rd imm, imm ++ (0 : BitVec 16), false)] : List (Instr × W32 × Bool)),
        RunsTo q.1 e s (WritesG rd q.2.1 q.2.2 (resultFlags q.2.1 q.2.2 noFlags)))) ∧
  (∀ (e : Fin 192) (rd ra rb : Fin 32) (s : State), Issues e s →
      let x := s.eng e
      let a := (x.gr ra).v
      let b := (x.gr rb).v
      let pa := (x.gr ra).p
      let p := pa || (x.gr rb).p
      (∃ n, SignBitsAre 32 a.toNat n ∧
        RunsTo (.exp e rd ra) e s (WritesG rd (BitVec.ofNat 32 n) pa noFlags) ∧
        RunsTo (.expmin e rd ra) e s
          (WritesG rd (if (x.gr rd).v.toInt < n then (x.gr rd).v else BitVec.ofNat 32 n) (pa || (x.gr rd).p) noFlags)) ∧
      (ra.val % 2 = 0 → ∃ n, (∃ k, k < 4 ∧ SignBitsAre 16 ((x.pairVal ra).1.toNat / 2 ^ (16 * k) % 2 ^ 16) n) ∧
        (∀ k, k < 4 → ∃ m, n ≤ m ∧ SignBitsAre 16 ((x.pairVal ra).1.toNat / 2 ^ (16 * k) % 2 ^ 16) m) ∧
        RunsTo (.expq e rd ra) e s (WritesG rd (BitVec.ofNat 32 n) (x.pairVal ra).2 noFlags) ∧
        RunsTo (.expminq e rd ra) e s
          (WritesG rd (if (x.gr rd).v.toInt < n then (x.gr rd).v else BitVec.ofNat 32 n) ((x.pairVal ra).2 || (x.gr rd).p)
            noFlags)) ∧
      RunsTo (.cmp e ra rb) e s (fun x y =>
        y.g = x.g ∧ { y with sr := x.sr, fp := x.fp } = x ∧
        FlagsMove x y (resultFlags (a - b) p fun k =>
          if k = 2 then some (decide (b.toNat ≤ a.toNat), p)
          else if k = 3 then some (leaves 32 (a.toInt - b.toInt), p) else none)))

/-! ### None -/

/-- T12.9 and R415: ADD.2H and SUB.2H work on each 16-bit lane and saturate or wrap by sat_en, where a saturation sets sat
and v; BF.2H writes the lane sums to g(rd) and the differences to g(rd + 1), rd even. z, n and c stay. T12.9: HADD.2H and
HSUB.2H write half the lane sum or difference, rounded by rnd (3 decoded as 0), and HBF.2H both; no flag changes. The one
lane value that would overflow, the rounded half of 65,535, is left free (assumption log 31). -/
def Obligations.EngineLaneArithmetic : Prop :=
  (∀ (e : Fin 192) (rd ra rb : Fin 32) (s : State), Issues e s →
      let x := s.eng e
      let lane (i : Fin 32) (k : Nat) : Int := laneInt (x.gr i).v.toNat k
      let p := (x.gr ra).p || (x.gr rb).p
      let sat := x.sr.getLsbD 30
      let fit (i : Int) : BitVec 16 :=
        if sat && leaves 16 i then (if i < 0 then 0x8000 else 0x7FFF) else BitVec.ofInt 16 i
      let word (f : Int → Int → Int) : W32 := fit (f (lane ra 1) (lane rb 1)) ++ fit (f (lane ra 0) (lane rb 0))
      let clips (f : Int → Int → Int) : Bool := sat && (leaves 16 (f (lane ra 0) (lane rb 0)) || leaves 16 (f (lane ra 1) (lane rb 1)))
      (∀ q ∈ ([(.add2h e rd ra rb, (· + ·)), (.sub2h e rd ra rb, (· - ·))] : List (Instr × (Int → Int → Int))),
        RunsTo q.1 e s (WritesG rd (word q.2) p (if clips q.2 then satFlags x p noFlags else noFlags))) ∧
      (rd.val % 2 = 0 →
        RunsTo (.bf2h e rd ra rb) e s (WritesPair rd (word (· + ·)) (word (· - ·)) p
          (if clips (· + ·) || clips (· - ·) then satFlags x p noFlags else noFlags)))) ∧
  (∀ (e : Fin 192) (rd ra rb : Fin 32) (s : State), Issues e s →
      let x := s.eng e
      let lane (i : Fin 32) (k : Nat) : Int := laneInt (x.gr i).v.toNat k
      let p := (x.gr ra).p || (x.gr rb).p
      let rnd := rndOf x
      let half (i : Int) : BitVec 16 :=
        if leaves 16 (roundOf rnd i 1) then Config.halfOverflow rnd else BitVec.ofInt 16 (roundOf rnd i 1)
      let word (f : Int → Int → Int) : W32 := half (f (lane ra 1) (lane rb 1)) ++ half (f (lane ra 0) (lane rb 0))
      RunsTo (.hadd2h e rd ra rb) e s (WritesG rd (word (· + ·)) p noFlags) ∧
      RunsTo (.hsub2h e rd ra rb) e s (WritesG rd (word (· - ·)) p noFlags) ∧
      (rd.val % 2 = 0 → RunsTo (.hbf2h e rd ra rb) e s (WritesPair rd (word (· + ·)) (word (· - ·)) p noFlags)))

/-- T12.8, T12.2, R405 and R409: MVP, MVG, MVM and MVMG move between g registers, pointers and modifiers with the poison
bit; ADDP post-modifies a pointer by the immediate: linear with length 0, circular inside the buffer otherwise; MVS writes a
special register from a g register without poison, only the bits that exist of it, a loop register emptying the repeat cache
(R420), and MVSG reads one. Nothing else changes but the pc. -/
def Obligations.EngineMoves : Prop :=
  ∀ (e : Fin 192) (rd ra : Fin 32) (i : Fin 8) (imm : BitVec 16) (s : State), Issues e s →
    let x := s.eng e
    RunsTo (.mvp e i ra) e s (fun x y =>
      y.pr i = x.gr ra ∧ (∀ j, j ≠ i.val → y.pr j = x.pr j) ∧ { y with p := x.p } = x) ∧
    RunsTo (.mvm e i ra) e s (fun x y =>
      y.mr i = x.gr ra ∧ (∀ j, j ≠ i.val → y.mr j = x.mr j) ∧ { y with m := x.m } = x) ∧
    RunsTo (.mvg e rd i) e s (WritesG rd (x.pr i).v (x.pr i).p noFlags) ∧
    RunsTo (.mvmg e rd i) e s (WritesG rd (x.mr i).v (x.mr i).p noFlags) ∧
    ((x.pr i).p = false →
      RunsTo (.addp e i imm) e s (fun x y =>
        (SMap.look 0 x.l i = 0 → y.pr i = { v := (x.pr i).v + imm.signExtend 32, p := false }) ∧
        (SMap.look 0 x.l i ≠ 0 → x.sr.getLsbD (8 + i) = false →
          ((y.pr i).v - SMap.look 0 x.b i).toNat = ((((x.pr i).v.toNat : Int) - (SMap.look 0 x.b i).toNat +
            imm.toInt) % (SMap.look 0 x.l i).toNat).toNat ∧ (y.pr i).p = false) ∧
        (∀ j, j ≠ i.val → y.pr j = x.pr j) ∧ { y with p := x.p } = x)) ∧
    (∀ k : Fin 32, k ≠ 2 → k ≠ 3 → (x.gr ra).p = false →
      RunsTo (.mvs e k ra) e s (fun x y =>
        (y.special k).1 = (x.gr ra).v &&& (if k = 0 then 0xF000FF1F else if k = 1 then 0xF else BitVec.allOnes 32) ∧
        (∀ j, j < 32 → j ≠ 2 → j ≠ 3 → j ≠ k.val → (y.special j).1 = (x.special j).1) ∧
        (1 ≤ k.val → k.val < 16 → y.cache = []) ∧
        { y with sr := x.sr, fp := x.fp, lpact := x.lpact, lc := x.lc, ls := x.ls, le := x.le, cache := x.cache
                 b := x.b, l := x.l } = x)) ∧
    (∀ k : Fin 32, k ≠ 2 → k ≠ 3 → RunsTo (.mvsg e rd k) e s (WritesG rd (x.special k).1 (x.special k).2 noFlags))

/-- R411, R413 and T12.9: MAC.W, MSU.W and MUL.W add, subtract or write the signed 32 x 32 product, MACU.W adds the unsigned
one, MAC.Q, MSU.Q and MUL.Q the sum of the four lane products of two pairs. Under sr.frac every signed product is doubled,
but for -1 times -1, which gives the greatest value and sets sat. A sum outside 72 bits sets v and saturates under sat_en,
setting sat. z, n, c and everything else stay. R412, R413: CMUL and CMULJ write the complex product of ga and gb, or of ga
and gb conjugated, CMAC and CMACJ add it: the real part to the even acd, the imaginary part to acd + 1, each product doubled
under sr.frac. z, n and c stay; where no sum and no product leaves its range, v and sat stay too; the other accumulators and
all registers stay. -/
def Obligations.EngineAccumulatorProducts : Prop :=
  (∀ (e : Fin 192) (acd : Fin 4) (ra rb : Fin 32) (s : State), Issues e s →
      let x := s.eng e
      let a := (x.gr ra).v
      let b := (x.gr rb).v
      let p := (x.gr ra).p || (x.gr rb).p
      let old := (x.acr acd).v.toInt
      let po := (x.acr acd).p
      let frac := x.sr.getLsbD 31
      let sat := x.sr.getLsbD 30
      let m := productOf frac 32 a.toInt b.toInt
      let bad := productClips frac 32 a.toInt b.toInt
      let lane (i : Fin 32) (k : Nat) : Int := laneInt (x.pairVal i).1.toNat k
      let m4 : Int := ((List.range 4).map fun k => productOf frac 16 (lane ra k) (lane rb k)).sum
      let bad4 := (List.range 4).any fun k => productClips frac 16 (lane ra k) (lane rb k)
      let p4 := (x.pairVal ra).2 || (x.pairVal rb).2
      (∀ q ∈ ([(.macw e acd ra rb, old + m, bad, p || po), (.msuw e acd ra rb, old - m, bad, p || po),
          (.mulw e acd ra rb, m, bad, p), (.macuw e acd ra rb, old + (a.toNat * b.toNat : Nat), false, p || po)] :
          List (Instr × Int × Bool × Bool)),
        RunsTo q.1 e s (SumsTo acd (accFit sat q.2.1) q.2.2.2 (accSr sat q.2.1 q.2.2.1))) ∧
      (ra.val % 2 = 0 → rb.val % 2 = 0 →
        ∀ q ∈ ([(.macq e acd ra rb, old + m4, p4 || po), (.msuq e acd ra rb, old - m4, p4 || po), (.mulq e acd ra rb, m4, p4)] :
            List (Instr × Int × Bool)),
          RunsTo q.1 e s (SumsTo acd (accFit sat q.2.1) q.2.2 (accSr sat q.2.1 bad4)))) ∧
  (∀ (e : Fin 192) (acd : Fin 4) (ra rb : Fin 32) (s : State), Issues e s → acd.val % 2 = 0 →
      let x := s.eng e
      let p := (x.gr ra).p || (x.gr rb).p
      let frac := x.sr.getLsbD 31
      let sat := x.sr.getLsbD 30
      let part (i : Fin 32) (k : Nat) : Int := laneInt (x.gr i).v.toNat k
      let m (i j : Nat) : Int := productOf frac 16 (part ra i) (part rb j)
      let clips := (productClips frac 16 (part ra 0) (part rb 0)) || (productClips frac 16 (part ra 1) (part rb 1)) ||
        (productClips frac 16 (part ra 0) (part rb 1)) || (productClips frac 16 (part ra 1) (part rb 0))
      let old (k : Nat) : Int := (x.acr k).v.toInt
      let po (k : Nat) : Bool := (x.acr k).p
      let c := acd.val
      ∀ q ∈ ([(.cmul e acd ra rb, m 0 0 - m 1 1, m 0 1 + m 1 0, p, p),
          (.cmulj e acd ra rb, m 0 0 + m 1 1, m 1 0 - m 0 1, p, p),
          (.cmac e acd ra rb, old c + (m 0 0 - m 1 1), old (c + 1) + (m 0 1 + m 1 0), p || po c, p || po (c + 1)),
          (.cmacj e acd ra rb, old c + (m 0 0 + m 1 1), old (c + 1) + (m 1 0 - m 0 1), p || po c, p || po (c + 1))] :
          List (Instr × Int × Int × Bool × Bool)),
        RunsTo q.1 e s (fun x y =>
          y.acr c = { v := accFit sat q.2.1, p := q.2.2.2.1 } ∧ y.acr (c + 1) = { v := accFit sat q.2.2.1, p := q.2.2.2.2 } ∧
          (∀ j, j ≠ c → j ≠ c + 1 → y.acr j = x.acr j) ∧ { y with ac := x.ac, sr := x.sr, fp := x.fp } = x ∧
          (∀ k, k < 32 → k ≠ 3 → k ≠ 4 → y.sr.getLsbD k = x.sr.getLsbD k) ∧
          (leaves 72 q.2.1 = false → leaves 72 q.2.2.1 = false → clips = false → y.sr = x.sr ∧ y.fp = x.fp)))

/-- R411, R414, R416 and T12.9: CLRA clears an accumulator, LDA loads a sign-extended pair, ADDA and SUBA add and subtract
accumulators as R411 says, NORM.A shifts left by ga from -72 to 71 (outside that the result is free, assumption log 31), SHA
shifts by sh from -32 to 31, the right shift rounded (its direction the model's reading, assumption log 32); EXT, EXT.H and
EXT2 shift right, round, and fit 32 or 16 bits, saturating under sat_en; EXP.A counts the redundant sign bits minus 8; MVAX
copies a part. z, n and c stay. -/
def Obligations.EngineAccumulators : Prop :=
  ∀ (e : Fin 192) (acd acs : Fin 4) (ra rb : Fin 32) (sh : BitVec 6) (s : State), Issues e s →
    let x := s.eng e
    let d := x.acr acd
    let c := x.acr acs
    let sat := x.sr.getLsbD 30
    let r (k : Nat) : Int := roundOf (rndOf x) (x.acr k).v.toInt sh.toNat
    let fit (w : Nat) (i : Int) : Int :=
      if leaves w i then (if sat then (if i < 0 then -2 ^ (w - 1) else 2 ^ (w - 1) - 1) else (BitVec.ofInt w i).toInt) else i
    let flags (b : Bool) (p : Bool) : FlagRule := if b && sat then satFlags x p noFlags else noFlags
    let g := (x.gr ra).v.toInt
    RunsTo (.clra e acd) e s (SumsTo acd 0 false fun _ => none) ∧
    (ra.val % 2 = 0 → RunsTo (.lda e acd ra) e s
      (SumsTo acd ((x.pairVal ra).1.signExtend 72) (x.pairVal ra).2 fun _ => none)) ∧
    RunsTo (.adda e acd acs) e s (SumsTo acd (accFit sat (d.v.toInt + c.v.toInt)) (c.p || d.p)
      (accSr sat (d.v.toInt + c.v.toInt) false)) ∧
    RunsTo (.suba e acd acs) e s (SumsTo acd (accFit sat (d.v.toInt - c.v.toInt)) (c.p || d.p)
      (accSr sat (d.v.toInt - c.v.toInt) false)) ∧
    RunsTo (.norma e acd ra) e s (SumsTo acd
      (if 0 ≤ g ∧ g ≤ 71 then d.v <<< g.toNat else if -72 ≤ g ∧ g < 0 then d.v.sshiftRight (-g).toNat
       else Config.normOut d.v (x.gr ra).v) (d.p || (x.gr ra).p) fun _ => none) ∧
    RunsTo (.sha e acd sh) e s (SumsTo acd
      (if 0 ≤ sh.toInt then d.v <<< sh.toInt.toNat
       else BitVec.ofInt 72 (roundOf (rndOf x) d.v.toInt (-sh.toInt).toNat)) d.p fun _ => none) ∧
    RunsTo (.ext e rb acs sh) e s
      (WritesG rb (BitVec.ofInt 32 (fit 32 (r acs))) c.p (flags (leaves 32 (r acs)) c.p)) ∧
    RunsTo (.exth e rb acs sh) e s
      (WritesG rb (BitVec.ofInt 32 (fit 16 (r acs))) c.p (flags (leaves 16 (r acs)) c.p)) ∧
    (acs.val % 2 = 0 →
      let p2 := c.p || (x.acr (acs.val + 1)).p
      RunsTo (.ext2 e rb acs sh) e s
        (WritesG rb (BitVec.ofInt 16 (fit 16 (r (acs.val + 1))) ++ BitVec.ofInt 16 (fit 16 (r acs))) p2
          (flags (leaves 16 (r acs) || leaves 16 (r (acs.val + 1))) p2))) ∧
    (∃ n, SignBitsAre 72 c.v.toNat n ∧ RunsTo (.expa e rb acs) e s (WritesG rb (BitVec.ofInt 32 ((n : Int) - 8)) c.p noFlags)) ∧
    RunsTo (.mvax e rb acs 0) e s (WritesG rb (c.v.truncate 32) c.p noFlags) ∧
    RunsTo (.mvax e rb acs 1) e s (WritesG rb ((c.v >>> 32).truncate 32) c.p noFlags) ∧
    RunsTo (.mvax e rb acs 2) e s (WritesG rb (((c.v >>> 64).truncate 8).signExtend 32) c.p noFlags)

/-- R418: an instruction that completes at pc goes on at the next one, unless pc is the end of an active loop level; of the
levels that end there, from the highest down, each with a count of at most 1 ends, and the first with more loops back with
its count less one. NOP does nothing else, and a 64-bit instruction with both slots disabled does what its compute word
does; a last step asks for its halt (16 R548). 11 R384, R386, R388 and T12.8: WAIT goes on at once where an enabled
interrupt is pending, and otherwise waits with its pc moved on; within a step it ends the step (16 R550). FENCE.SL and
FENCE.I complete once the store buffer is empty, FENCE.DMA once the DMA channel is idle as well, FENCE.I emptying the repeat
cache; before that a fence leaves everything as it is. -/
def Obligations.EngineSequenceAndWaits : Prop :=
  (∀ (e : Fin 192) (s : State), Issues e s →
      let x := s.eng e
      let ends (k : Nat) : Prop := x.lpact.getLsbD k = true ∧ SMap.look 0 x.le k = x.pc
      ((∀ k, k < 4 → ends k → (SMap.look 0 x.lc k).toNat ≤ 1) →
        FlowsTo (.nop e) e s fun x y =>
          Jumps (x.pc + 4) (fun x y => { y with lpact := x.lpact }) x y ∧
          ∀ k, k < 4 → (y.lpact.getLsbD k = true ↔ x.lpact.getLsbD k = true ∧ SMap.look 0 x.le k ≠ x.pc)) ∧
      (∀ k, k < 4 → ends k → 1 < (SMap.look 0 x.lc k).toNat →
        (∀ j, k < j → j < 4 → ends j → (SMap.look 0 x.lc j).toNat ≤ 1) →
        FlowsTo (.nop e) e s fun x y =>
          Jumps (SMap.look 0 x.ls k) (fun x y => { y with lpact := x.lpact, lc := x.lc }) x y ∧
          SMap.look 0 y.lc k = SMap.look 0 x.lc k - 1 ∧ (∀ j, j ≠ k → SMap.look 0 y.lc j = SMap.look 0 x.lc j) ∧
          ∀ j, j < 4 → (y.lpact.getLsbD j = true ↔ x.lpact.getLsbD j = true ∧ ¬ (k < j ∧ SMap.look 0 x.le j = x.pc))) ∧
      (∀ (s1 s2 : Slot) (size : Fin 4) (sx : Bool) (w : ComputeWord) (y : Engine), s1.en = false → s2.en = false →
        ComputeWord.op w x = .ok y → exec (.accessPrefixPair e s1 s2 size sx w) s = .next (s.setEng e fun _ => y.advance 8))) ∧
  (∀ (e : Fin 192) (s : State), Issues e s →
      let x := s.eng e
      let y := x.advance 4
      (x.steps = 0 → exec (.wait e) s =
        .next (s.setEng e fun _ => if x.ie &&& x.ip ≠ 0 then y else { y with state := .waiting })) ∧
      (x.steps ≠ 0 → exec (.wait e) s = .next (s.setEng e fun _ => { y with steps := 0, haltAsked := some 3 })) ∧
      (x.sb = [] →
        exec (.fenceSl e) s = .next (s.setEng e fun _ => y) ∧
        (x.dma.busy = false → exec (.fenceDma e) s = .next (s.setEng e fun _ => y)) ∧
        (x.dma.busy = true → exec (.fenceDma e) s = .next s) ∧
        (RunsTo (.fenceI e) e s fun x z => z = { x with cache := [] })) ∧
      (∀ b rest, x.sb = b :: rest → b.isGlobal = true →
        exec (.fenceSl e) s = .next s ∧ exec (.fenceDma e) s = .next s ∧ exec (.fenceI e) s = .next s))

/-- R425 and R419: a branch is taken where its condition over z, n, c, v and sat holds, to pc plus 4 times its offset; it
and JMP end every active loop level from the lowest one whose body the target leaves on; a branch not taken goes on in
sequence. A condition on a poisoned flag raises POISON (11 R385), and 13 and 14 are undefined (R424). T12.8, R419, R422 and
11 R386: CALL and CALLR write pc + 4 to g31, the target of CALLR read before, JR and CALLR jump to ga, RETE clears
exc_active and jumps to ENG_EPC; none of them ends a loop level. A poisoned target raises POISON. R417, R418 and R420: REP
and REPI start a loop level: its start is the next instruction, its end 4 times the end offset after pc, its count the
register or the immediate, and it is active; a count of 0 leaves it inactive and goes on after its end. The repeat cache
empties. An end of 0 is undefined, a poisoned count raises POISON. -/
def Obligations.EngineControlFlow : Prop :=
  (∀ (e : Fin 192) (off : BitVec 22) (far : BitVec 26) (s : State), Issues e s →
      let x := s.eng e
      let z := x.sr.getLsbD 0
      let n := x.sr.getLsbD 1
      let c := x.sr.getLsbD 2
      let v := x.sr.getLsbD 3
      let goes (i : Instr) (t : W32) : Prop := FlowsTo i e s fun x y =>
        Jumps t (fun x y => { y with lpact := x.lpact }) x y ∧
        ∀ k, k < 4 → (y.lpact.getLsbD k = true ↔
          x.lpact.getLsbD k = true ∧ ∀ j, j ≤ k → x.lpact.getLsbD j = true → InBody x j t)
      (∀ q ∈ ([(0, z, [0]), (1, !z, [0]), (2, n != v, [1, 3]), (3, n == v, [1, 3]), (4, !c, [2]), (5, c, [2]), (6, n, [1]),
          (7, !n, [1]), (8, v, [3]), (9, !v, [3]), (10, !z && n == v, [0, 1, 3]), (11, z || n != v, [0, 1, 3]),
          (12, x.sr.getLsbD 4, [4]), (15, true, [])] : List (Fin 16 × Bool × List Nat)),
        ((∀ k ∈ q.2.2, x.fp.getLsbD k = false) → q.2.1 = true →
          goes (.br e q.1 off) (x.pc + BitVec.ofInt 32 (4 * off.toInt))) ∧
        ((∀ k ∈ q.2.2, x.fp.getLsbD k = false) → q.2.1 = false →
          exec (.br e q.1 off) s = .next (s.setEng e fun x => x.advance 4)) ∧
        ((∃ k ∈ q.2.2, x.fp.getLsbD k = true) → exec (.br e q.1 off) s = .next (takeException e 7 0 s))) ∧
      (∀ k ∈ ([13, 14] : List (Fin 16)), exec (.br e k off) s = .next (takeException e 1 0 s)) ∧
      goes (.jmp e far) (x.pc + BitVec.ofInt 32 (4 * far.toInt))) ∧
  (∀ (e : Fin 192) (off : BitVec 26) (ra : Fin 32) (s : State), Issues e s →
      let x := s.eng e
      let linked (x y : Engine) : Prop := y.gr 31 = { v := x.pc + 4, p := false } ∧ ∀ j, j ≠ 31 → y.gr j = x.gr j
      (FlowsTo (.call e off) e s fun x y =>
        Jumps (x.pc + BitVec.ofInt 32 (4 * off.toInt)) (fun x y => { y with g := x.g }) x y ∧ linked x y) ∧
      (FlowsTo (.rete e) e s fun x y =>
        Jumps x.epc (fun x y => { y with excActive := x.excActive }) x y ∧ y.excActive = false) ∧
      ((x.gr ra).p = false →
        (FlowsTo (.jr e ra) e s fun x y => Jumps (x.gr ra).v (fun _ y => y) x y) ∧
        (FlowsTo (.callr e ra) e s fun x y =>
          Jumps (x.gr ra).v (fun x y => { y with g := x.g }) x y ∧ linked x y)) ∧
      ((x.gr ra).p = true →
        exec (.jr e ra) s = .next (takeException e 7 0 s) ∧ exec (.callr e ra) s = .next (takeException e 7 0 s))) ∧
  (∀ (e : Fin 192) (k : Fin 4) (end_ : BitVec 8) (ra : Fin 32) (imm : BitVec 16) (s : State), Issues e s →
      let x := s.eng e
      let le := x.pc + BitVec.ofNat 32 (4 * end_.toNat)
      let starts (n : W32) (x y : Engine) : Prop :=
        SMap.look 0 y.ls k = x.pc + 4 ∧ SMap.look 0 y.le k = le ∧ SMap.look 0 y.lc k = n ∧
        (∀ j, j < 4 → y.lpact.getLsbD j = if j = k.val then n != 0 else x.lpact.getLsbD j) ∧ y.cache = [] ∧
        (∀ j, j ≠ k.val → SMap.look 0 y.ls j = SMap.look 0 x.ls j ∧ SMap.look 0 y.le j = SMap.look 0 x.le j ∧
          SMap.look 0 y.lc j = SMap.look 0 x.lc j)
      let back (x y : Engine) : Engine := { y with ls := x.ls, le := x.le, lc := x.lc, lpact := x.lpact, cache := x.cache }
      ∀ q ∈ ([(.rep e k end_ ra, (x.gr ra).v, (x.gr ra).p), (.repi e k end_ imm, imm.zeroExtend 32, false)] :
          List (Instr × W32 × Bool)),
        (end_ = 0 → exec q.1 s = .next (takeException e 1 0 s)) ∧
        (end_ ≠ 0 → q.2.2 = true → exec q.1 s = .next (takeException e 7 0 s)) ∧
        (end_ ≠ 0 → q.2.2 = false → q.2.1 ≠ 0 → RunsTo q.1 e s fun x y => starts q.2.1 x y ∧ back x y = x) ∧
        (end_ ≠ 0 → q.2.2 = false → q.2.1 = 0 → FlowsTo q.1 e s fun x y => Jumps (le + 4) back x y ∧ starts 0 x y))

/-- R409, T12.5 and 11 R379, R385: the address of LD and ST is the pointer plus the displacement in mode 0, which leaves the
pointer; in modes 1 and 2 it is the pointer, which is post-modified by the displacement or a modifier, linearly with a
length of 0. Mode 3, an odd register of a pair and a modifier number above 7 are undefined (R424); a poisoned pointer or
modifier raises POISON. An address that its size does not divide raises MISALIGNED, one without a target NO_SEGMENT, all
before anything is done. -/
def Obligations.EngineAddressing : Prop :=
  ∀ (e : Fin 192) (rd : Fin 32) (m : MemForm) (s : State), Issues e s →
    let x := s.eng e
    let n := 2 ^ m.size.val
    let i := m.ptr.val
    let mi := m.disp.toNat
    let undefined := m.am = 3 ∨ (n = 8 ∧ rd.val % 2 = 1) ∨ (m.am = 2 ∧ 8 ≤ mi)
    let poisoned := (x.pr i).p = true ∨ (m.am = 2 ∧ (x.mr mi).p = true)
    let addr := if m.am = 0 then (x.pr i).v + m.disp.signExtend 32 else (x.pr i).v
    (undefined → exec (.ld e rd m) s = .next (takeException e 1 0 s) ∧ exec (.st e rd m) s = .next (takeException e 1 0 s)) ∧
    (¬ undefined → poisoned →
      exec (.ld e rd m) s = .next (takeException e 7 0 s) ∧ exec (.st e rd m) s = .next (takeException e 7 0 s)) ∧
    (¬ undefined → ¬ poisoned →
      (addr.toNat % n ≠ 0 →
        exec (.ld e rd m) s = .next (takeException e 3 0 s) ∧ exec (.st e rd m) s = .next (takeException e 3 0 s)) ∧
      (addr.toNat % n = 0 → x.place e addr = none →
        exec (.ld e rd m) s = .next (takeException e 4 0 s) ∧ exec (.st e rd m) s = .next (takeException e 4 0 s)) ∧
      ∀ store, ∃ a, MemForm.access x store rd m = .ok a ∧ a.addr = addr ∧ a.size = n ∧ a.reg = rd ∧ a.sx = m.sx ∧
        a.store = store ∧ (m.am = 0 → a.ptr = none) ∧
        (SMap.look 0 x.l i = 0 → m.am = 1 → a.ptr = some (i, (x.pr i).v + m.disp.signExtend 32)) ∧
        (SMap.look 0 x.l i = 0 → m.am = 2 → a.ptr = some (i, (x.pr i).v + (x.mr mi).v)))

/-- R409, R410, T12.7 and 11 R382: a load from the engine's own memories, no comparator armed and no earlier store to its
bytes buffered, writes what the memory holds to its register, extended, and updates the pointer; where the youngest store
that overlaps is to the same bytes, it takes that store's value and poison. Nothing else changes but the pc. R381, R409: a
store enters the store buffer behind the others, with the place, size, value and poison it had at issue, and updates the
pointer; no byte of memory changes yet. STORE_PERFORM then performs the head: a local store writes its bytes, and those
alone. -/
def Obligations.EngineLocalAccesses : Prop :=
  (∀ (e : Fin 192) (rd : Fin 32) (m : MemForm) (a : Access) (q : Nat) (s : State), Issues e s →
      let x := s.eng e
      let loaded (v : Nat) (p : Bool) : Prop := RunsTo (.ld e rd m) e s fun x y =>
        Loads rd a.size m.sx v p x y ∧ (a.ptr = none → y.p = x.p) ∧
        (∀ i v, a.ptr = some (i, v) → y.pr i = { v, p := false } ∧ ∀ j, j ≠ i → y.pr j = x.pr j) ∧
        { y with g := x.g, p := x.p } = x
      MemForm.access x false rd m = .ok a → a.addr.toNat % a.size = 0 → x.cmps = [] → x.place e a.addr = some (.mem q) →
      (overlapEntry x.sb false q a.size = none → CleanAt x q a.size → loaded (memVal x q a.size) false) ∧
      (∀ b, overlapEntry x.sb false q a.size = some b → b.addr = q → b.size = a.size →
        loaded (b.data.toNat % 2 ^ (8 * a.size)) b.poison)) ∧
  (∀ (e : Fin 192) (s : State),
      let x := s.eng e
      (∀ (rd : Fin 32) (m : MemForm) (a : Access) (g : Bool) (q : Nat), Issues e s →
        MemForm.access x true rd m = .ok a → a.addr.toNat % a.size = 0 → x.cmps = [] → x.sb.length < 8 →
        (x.place e a.addr = some (.mem q) ∧ g = false ∨ x.place e a.addr = some (.glob q) ∧ g = true) →
        RunsTo (.st e rd m) e s fun x y =>
          y.sb = x.sb ++ [{ isGlobal := g, addr := q, size := a.size, data := (a.value x).1, poison := (a.value x).2, sent := false }] ∧
          (a.ptr = none → y.p = x.p) ∧
          (∀ i v, a.ptr = some (i, v) → y.pr i = { v, p := false } ∧ ∀ j, j ≠ i → y.pr j = x.pr j) ∧
          { y with sb := x.sb, p := x.p } = x) ∧
      (∀ b rest, x.sb = b :: rest → b.isGlobal = false → b.addr + b.size ≤ 0x60000 → x.stopAsked = none →
        x.state ≠ .stopped → s.power.mode ≠ .hold →
        FlowsTo (.storePerform e) e s fun x y =>
          y.sb = rest ∧ { y with sb := x.sb, mem := x.mem } = x ∧
          (∀ i, i < b.size → SMap.look {} y.mem (b.addr + i) =
            { data := BitVec.ofNat 8 (b.data.toNat / 2 ^ (8 * i)), chk := if b.poison then .poison else .clean }) ∧
          (∀ k, k < b.addr ∨ b.addr + b.size ≤ k → SMap.look {} y.mem k = SMap.look {} x.mem k)))

/-- R380, R381 and R387: a global load leaves the engine waiting with its registers as they are; its OK response writes the
register and the pointer, and any other status raises LOAD_ERROR with the address of the load. The OK response of a sent
store frees its entry; another status sets store_err_pending with its address and status, and a second one while it is
pending sets store_err_overrun and is logged. R422, R426, R427: a 64-bit instruction with two loads from clean memory of the
engine, its pointers distinct and no store buffered, runs its compute word on the registers as they were, then writes slot
1's load and slot 2's over its results, and advances both pointers, each by its modifier or by the size. Two enabled slots
on one pointer are undefined (R424). -/
def Obligations.EngineGlobalAndPairedAccesses : Prop :=
  (∀ (e : Fin 192) (s : State),
      let x := s.eng e
      (∀ (rd : Fin 32) (m : MemForm) (a : Access) (q : Nat), Issues e s →
        MemForm.access x false rd m = .ok a → a.addr.toNat % a.size = 0 → x.cmps = [] →
        x.place e a.addr = some (.glob q) → overlapEntry x.sb true q a.size = none →
        exec (.ld e rd m) s = .next (s.setEng e fun x =>
          { x with gload := some { instr := .ld rd m, addr := BitVec.ofNat 48 q, more := [], got := [] } })) ∧
      (∀ (rd : Fin 32) (m : MemForm) (a : Access) (q : Nat) (data : List Byte) (p : Bool),
        x.gload = some { instr := .ld rd m, addr := BitVec.ofNat 48 q, more := [], got := [] } →
        MemForm.access x false rd m = .ok a → a.addr.toNat % a.size = 0 → x.cmps = [] →
        x.place e a.addr = some (.glob q) → overlapEntry x.sb true q a.size = none → x.stopAsked = none →
        x.state = .running → s.power.mode ≠ .hold → data.length = a.size →
        RunsTo (.globalLoadResponse e 0 data p) e s fun x y =>
          Loads rd a.size m.sx (leNat data) p x y ∧ (a.ptr = none → y.p = x.p) ∧
          (∀ i v, a.ptr = some (i, v) → y.pr i = { v, p := false } ∧ ∀ j, j ≠ i → y.pr j = x.pr j) ∧
          { y with g := x.g, p := x.p, gload := x.gload } = x ∧ y.gload = none) ∧
      (∀ (g : GLoad) (st : BitVec 4) (data : List Byte) (p : Bool), x.gload = some g → st ≠ 0 → x.stopAsked = none →
        s.power.mode ≠ .hold →
        exec (.globalLoadResponse e st data p) s =
          .next (takeException e 5 st ((s.setEng e fun x => { x with gload := none }).setEng e fun x =>
            { x with faultAddr := g.addr }))) ∧
      (∀ (b : SbEntry) (rest : List SbEntry) (st : BitVec 4), x.sb = b :: rest → b.sent = true → x.stopAsked = none →
        x.state ≠ .stopped → s.power.mode ≠ .hold →
        (st = 0 → exec (.storeResponse e st) s = .next (s.setEng e fun x => { x with sb := rest })) ∧
        (st ≠ 0 → x.storeErr = false → exec (.storeResponse e st) s = .next (s.setEng e fun x =>
          { x with sb := rest, storeErr := true, storeErrStatus := st, faultAddr := BitVec.ofNat 48 b.addr })) ∧
        (st ≠ 0 → x.storeErr = true → exec (.storeResponse e st) s =
          .next (logEvent 0x8005 [e, b.addr, st.toNat] (s.setEng e fun x =>
            { x with sb := rest, storeErrOverrun := true }))))) ∧
  (∀ (e : Fin 192) (s1 s2 : Slot) (size : Fin 4) (sx : Bool) (w : ComputeWord) (s : State), Issues e s →
      let x := s.eng e
      let n := 2 ^ size.val
      let addr (t : Slot) : Nat := (x.pr t.ptr).v.toNat
      let readable (t : Slot) : Prop := t.en = true ∧ t.store = false ∧ (n = 8 → t.reg.val % 2 = 0) ∧
        (x.pr t.ptr).p = false ∧ (t.useMod = true → (x.mr t.ptr).p = false) ∧ SMap.look 0 x.l t.ptr = 0 ∧
        addr t % n = 0 ∧ addr t < 0x60000 ∧ CleanAt x (addr t) n
      let moved (t : Slot) : W32 := (x.pr t.ptr).v + if t.useMod then (x.mr t.ptr).v else BitVec.ofNat 32 n
      (s1.en = true → s2.en = true → s1.ptr = s2.ptr → exec (.accessPrefixPair e s1 s2 size sx w) s = .next (takeException e 1 0 s)) ∧
      (∀ y, ComputeWord.op w x = .ok y → size ≠ 0 → x.cmps = [] → x.sb = [] → readable s1 → readable s2 → s1.ptr ≠ s2.ptr →
        ∃ u z, Loads s1.reg n (sx && n == 2) (memVal x (addr s1) n) false y u ∧
          Loads s2.reg n (sx && n == 2) (memVal x (addr s2) n) false u z ∧
          z.pr s1.ptr = { v := moved s1, p := false } ∧ z.pr s2.ptr = { v := moved s2, p := false } ∧
          (∀ j, j ≠ s1.ptr.val → j ≠ s2.ptr.val → z.pr j = y.pr j) ∧ { z with g := y.g, p := y.p } = y ∧
          exec (.accessPrefixPair e s1 s2 size sx w) s = .next (s.setEng e fun _ => z.advance 8)))

/-! ### Engines: issue, exceptions and events (11) -/

/-- R376 (with 11 R387, R394 and R396): an instruction whose pc lies outside P memory raises FETCH and does nothing else; a
pending store error is taken before it, an engine that does not execute stays as it is, and a fetch comparator that hits
halts the engine where the mode lets it, else raises BREAK. -/
def Obligations.EngineFetchFaults : Prop :=
  ∀ (i : Instr) (e : Fin 192) (s : State), engineOf i = some e →
    let x := s.eng e
    let hits := x.cmpHits [0] x.pc
    (s.executes e = true → x.storeErr = false → 0x1FFFF < x.pc.toNat → exec i s = .next (takeException e 2 0 s)) ∧
    (s.executes e = true → x.storeErr = true → exec i s = .next (takeException e 6 x.storeErrStatus s)) ∧
    (s.executes e = false → exec i s = .next s) ∧
    (s.executes e = true → x.storeErr = false → x.pc.toNat ≤ 0x1FFFF →
      (hits.getLsbD 1 = true → s.secAxis ≠ .quarantine →
        exec i s = .next (s.setEng e fun x => { x with haltAsked := some 1, steps := 0 })) ∧
      (hits.getLsbD 0 = true → hits.getLsbD 1 = false ∨ s.secAxis = .quarantine →
        exec i s = .next (takeException e 8 0 s)))

/-- 11 R373, R381 and R397: an instruction of one engine changes no other engine, and of the rest of the part only what a
store to its own register block reaches: the intake, through the mailbox, the register-pair latches and the event recorder.
-/
def Obligations.EngineIsolation : Prop :=
  ∀ (i : Instr) (e : Fin 192) (s t : State), engineOf i = some e → exec i s = .next t →
    (∀ o, o ≠ e.val → t.eng o = s.eng o) ∧ KeptBut [.engines, .intake, .latches, .evr] s t

/-- R386 and R388: an exception or an interrupt found between instructions writes the pc to ENG_EPC, the code, the status
and the interrupt bit to ENG_ECAUSE, sets exc_active and goes to ENG_VBASE + 16 times the code; a fault without fault_vec or
in a handler puts the engine in FAULTED with its code and is logged as 0x8001. An interrupt is taken while gie is 1 and
exc_active 0, the lowest enabled one first. R386, R389, R390 and R393: a timer match makes TIMER pending, at the time
when the counter comes to equal ENG_TIMER_CMP, and clears the counter under reload; ENG_IRQ_RAISE makes the software
interrupt pending; an enabled pending interrupt ends a wait. The doorbell submits the packet that the request registers name
on command port 5 and is dropped while a request is unanswered; the acknowledge frees the reply space. -/
def Obligations.EngineExceptionsAndEvents : Prop :=
  (∀ (e : Fin 192) (code : BitVec 8) (s : State), s.executes e = true →
      let x := s.eng e
      let n := code.toNat
      let fault := 1 ≤ n ∧ n ≤ 8 ∧ n ≠ 6
      let entered (irq : Bool) : State := s.setEng e fun x =>
        { x with epc := x.pc, excActive := true, pc := x.vbase + BitVec.ofNat 32 (16 * n)
                 ecause := BitVec.ofNat 32 (n + if irq then 2 ^ 31 else 0), steps := 0
                 haltAsked := if x.steps ≠ 0 then some 3 else x.haltAsked }
      (fault → x.faultVec = true → x.excActive = false → exec (.exceptionEntry e code) s = .next (entered false)) ∧
      (fault → x.faultVec = false ∨ x.excActive = true → x.sb = [] →
        exec (.exceptionEntry e code) s = .next (logEvent 0x8001 [e, n, 0, x.pc.toNat, x.faultAddr.toNat]
          (s.setEng e fun x => { x with state := .faulted, faultCode := code, steps := 0 }))) ∧
      (∀ k, k < 4 → n = 16 + k → x.gie = true → x.excActive = false → x.stepNoInt = false →
        (x.ie &&& x.ip).getLsbD k = true → (∀ j, j < k → (x.ie &&& x.ip).getLsbD j = false) →
        exec (.exceptionEntry e code) s = .next (entered true)) ∧
      (16 ≤ n → x.gie = false ∨ x.excActive = true → exec (.exceptionEntry e code) s = .next s) ∧
      (n = 6 → x.storeErr = true → x.faultVec = true → x.excActive = false →
        FlowsTo (.exceptionEntry e code) e s fun x y => y.storeErr = false ∧ y.epc = x.pc ∧ y.excActive = true ∧
          y.ecause = BitVec.ofNat 32 (6 + x.storeErrStatus.toNat * 2 ^ 24) ∧ y.pc = x.vbase + 96)) ∧
  (∀ (e : Fin 192) (v : W32) (s : State),
      let x := s.eng e
      let src : BitVec 16 := BitVec.ofNat 16 e
      let woken (p : BitVec 4) : EngState := if x.state = .waiting ∧ x.ie &&& p ≠ 0 then .running else x.state
      let cyc := (x.timerCtl.toNat % 2 ^ 16 + 1) * max 1 x.clkDiv.toNat
      let counts := if x.timer.toNat < x.timerCmp.toNat then x.timerCmp.toNat - x.timer.toNat
        else 2 ^ 32 + x.timerCmp.toNat - x.timer.toNat
      let due := x.timerAt + (counts * cyc - x.prescale + 19) / 20
      (x.timerCtl.getLsbD 31 = true → x.holdStopped = false → x.state ≠ .halted →
        ∃ t, exec (.timerMatch e) s = .next t ∧ t.time = max s.time due ∧ KeptBut [.engines, .time] s t ∧
          (∀ o, o ≠ e.val → t.eng o = s.eng o) ∧ (t.eng e).ip = x.ip ||| 1 ∧ (t.eng e).state = woken (x.ip ||| 1) ∧
          (s.time ≤ due → x.prescale < cyc → (counts * cyc - x.prescale) % 20 = 0 →
            (t.eng e).timer = if x.timerCtl.getLsbD 30 then 0 else x.timerCmp) ∧
          { t.eng e with timer := x.timer, prescale := x.prescale, timerAt := x.timerAt, ip := x.ip, state := x.state } = x) ∧
      (v.getLsbD 0 = true → exec (.engIrqRaise e v) s = .next (s.setEng e fun x =>
        { x with ip := x.ip ||| 8, state := woken (x.ip ||| 8) })) ∧
      (v.getLsbD 0 = true → (s.space 5 src).reqBusy = true → exec (.engMbDoorbell e v) s = .next s) ∧
      (v.getLsbD 0 = true → (s.space 5 src).reqBusy = false → s.intake.opened = true → 16 ≤ x.mbReqLen.toNat →
        x.mbReqLen.toNat ≤ 65568 → CleanAt x x.mbReqAddr.toNat x.mbReqLen.toNat → (s.space 5 src).retryUntil ≤ s.time →
        ∃ t, exec (.engMbDoorbell e v) s = .next t ∧ (t.space 5 src).reqBusy = true ∧
          (t.cport 5).requests = (s.cport 5).requests ++ [parsePacket 5 src
            ((List.range x.mbReqLen.toNat).map fun i => (SMap.look {} x.mem (x.mbReqAddr.toNat + i)).data)] ∧
          KeptBut [.intake] s t) ∧
      (∀ r, v.getLsbD 0 = true → (s.space 5 src).current = some r → (s.space 5 src).waiting = [] →
        exec (.engMbAck e v) s = .next (s.setSpace 5 src fun sp => { sp with current := none })))

/-- R391, R392: go starts a channel that is idle and whose setting is valid, with all bytes to move; an invalid setting ends
it at once with error and status 15, and done; a busy channel ignores go. Abort lets the packets in flight end, at most 8. A
response that is not OK stops the channel with its status; an OK one moves the packet's bytes, which never cross a block of
256 bytes, with their poison, and the last one ends the transfer. R375, R377, R397 and 00 R600: a request in the window of
an engine whose clock runs reads and writes its memories byte by byte, an offset that Table 11.1 does not list answers
NO_TARGET (5), and its registers are read and written by whole words. The answer goes the way of `answer`. -/
def Obligations.EngineDmaAndWindow : Prop :=
  (∀ (e : Fin 192) (st : BitVec 4) (data : List Byte) (poison : BitVec 4) (s : State),
      let x := s.eng e
      let d := x.dma
      let len := x.dmaLen.toNat
      let a := x.dmaLocal.toNat
      let valid := 4 ≤ len ∧ len ≤ 131072 ∧ len % 4 = 0 ∧ a % 4 = 0 ∧ x.dmaGlobal.toNat % 4 = 0 ∧ a < 0x60000 ∧
        a / 0x20000 = (a + len - 1) / 0x20000
      let ended (x : Engine) (err : Bool) (st : BitVec 4) : Engine := x.dmaEnd err st
      let at_ := (x.dmaGlobal.toNat + d.moved) % 256
      let n := min d.remaining.toNat (256 - at_)
      (x.sb = [] → d.busy = true → exec (.dmaGo e) s = .next (s.setEng e fun x => x)) ∧
      (x.sb = [] → d.busy = false → valid → exec (.dmaGo e) s = .next (s.setEng e fun x =>
        { x with dma := { x.dma with busy := true, aborting := none, remaining := x.dmaLen, moved := 0 } })) ∧
      (x.sb = [] → d.busy = false → ¬ valid → exec (.dmaGo e) s = .next (s.setEng e fun x => ended x true 15)) ∧
      (d.busy = true → d.aborting = none → FlowsTo (.dmaAbort e) e s fun x y =>
        (∃ k, k ≤ 8 ∧ y.dma.aborting = some k) ∧ { y with dma := { y.dma with aborting := x.dma.aborting } } = x) ∧
      (d.busy = true → x.holdStopped = false → d.held = none → st ≠ 0 →
        exec (.dmaPacketResponse e st data poison) s = .next (s.setEng e fun x => ended x true st)) ∧
      (d.busy = true → x.holdStopped = false → d.held = none → d.aborting = none → x.dmaDir = false → poison = 0 →
        data.length = n → n < d.remaining.toNat → x.state ≠ .stopped →
        FlowsTo (.dmaPacketResponse e 0 data poison) e s fun x y =>
          (∀ i, i < n → SMap.look {} y.mem (a + d.moved + i) = { data := nth 0 data i }) ∧
          (∀ k, k < a + d.moved ∨ a + d.moved + n ≤ k → SMap.look {} y.mem k = SMap.look {} x.mem k) ∧
          y.dma.remaining.toNat = d.remaining.toNat - n ∧ y.dma.moved = d.moved + n ∧ y.dma.busy = true ∧
          { y with mem := x.mem, dma := x.dma } = x) ∧
      (∀ err k, let y := ended x err k
        y.dma.busy = false ∧ y.dma.done = true ∧ y.dma.error = (d.error || err) ∧
        (err = true → y.dma.status = k) ∧ (x.dmaIrq = true → y.ip = x.ip ||| 4) ∧ (x.dmaIrq = false → y.ip = x.ip))) ∧
  (∀ (r : GReq) (s : State),
      let e := r.addr.toNat / 2 ^ 20 % 2 ^ 8
      let o := r.addr.toNat % 2 ^ 20
      let n := r.len.toNat + 1
      let x := s.eng e
      r.ok = true → x.holdStopped = false →
      (r.op = .read → o + n ≤ 0x60000 → CleanAt x o n → exec (.engineWindowAccess r) s =
        .next (answer r 0 ((List.range n).map fun i => (SMap.look {} x.mem (o + i)).data) 0 s)) ∧
      (r.op = .write → o + n ≤ 0x60000 → ∃ u, exec (.engineWindowAccess r) s = .next (answer r 0 [] 0 u) ∧
        KeptBut [.engines] s u ∧ (∀ k, k ≠ e → u.eng k = s.eng k) ∧ { u.eng e with mem := x.mem } = x ∧
        (∀ i, i < n → r.byteEn.getLsbD (r.addr.toNat % 256 + i) = true → SMap.look {} (u.eng e).mem (o + i) =
          { data := nth 0 r.data i, chk := if r.poison.getLsbD ((r.addr.toNat % 256 + i) / 64) then .poison else .clean }) ∧
        (∀ k, (k < o ∨ o + n ≤ k ∨ r.byteEn.getLsbD (r.addr.toNat % 256 + (k - o)) = false) →
          SMap.look {} (u.eng e).mem k = SMap.look {} x.mem k)) ∧
      (0x60000 ≤ o → o < 0xF0000 → exec (.engineWindowAccess r) s = .next (answer r 5 [] 0 s)) ∧
      (r.op = .write → r.len = 3 → o = 0xF0014 → (∀ i, i < 4 → r.byteEn.getLsbD (r.addr.toNat % 256 + i) = true) →
        exec (.engineWindowAccess r) s =
          .next (answer r 0 [] 0 (s.setEng e fun x => { x with vbase := BitVec.ofNat 32 (leNat r.data) }))) ∧
      (r.op = .read → r.len = 3 → o = 0xF0014 →
        exec (.engineWindowAccess r) s = .next (answer r 0 (leBytes 4 x.vbase.toNat) 0 s)))

/-- 11 R402, 16 R549 to R551: an engine asked to halt halts at an instruction boundary with its loads and stores done,
remembers whether it waited, records the cause and is logged as 0xA010; a comparator's halt asks every other live engine of
the halt group to halt; an engine that has not stopped within its limit is WEDGED and logged as 0x8002. -/
def Obligations.EngineHaltsAndStops : Prop :=
  ∀ (e : Fin 192) (cause : BitVec 2) (s : State),
    let x := s.eng e
    (x.haltAsked = some cause → x.state = .running ∨ x.state = .waiting → x.gload = none → x.sb = [] → s.intake.table = [] →
      s.intake.busy = none → s.dbg.freeze = 0 → s.dbg.lanesFrozen = false →
      ∃ t, exec (.engineHalt e cause) s = .next t ∧ (t.eng e).state = .halted ∧ (t.eng e).haltAsked = none ∧
        (t.eng e).haltedBy = cause ∧ (t.eng e).wasWaiting = (x.state == .waiting) ∧ (t.eng e).pc = x.pc ∧
        (t.eng e).g = x.g ∧ (t.eng e).mem = x.mem ∧ (t.eng e).sr = x.sr ∧
        (∀ o, o ≠ e.val → t.eng o = s.eng o) ∧ t.evr = s.evr.raise s.time
          { code := 0xA010, slots := [BitVec.ofNat 64 e, BitVec.ofNat 64 cause.toNat, BitVec.ofNat 64 x.pc.toNat]
            time := s.time } ∧
        KeptBut [.engines, .evr] s t) ∧
    (s.dbg.xhalt.getLsbD e = true → x.haltAsked = some 1 →
      ∃ t, exec (.haltGroupRequest e) s = .next t ∧ KeptBut [.engines] s t ∧
        ∀ o : Fin 192, t.eng o = if o ≠ e ∧ s.dbg.xhalt.getLsbD o = true ∧
            ((s.eng o).state = .running ∨ (s.eng o).state = .waiting) ∧ (s.eng o).haltAsked = none then
            { s.eng o with haltAsked := some 2, steps := 0 } else s.eng o) ∧
    (x.stopAsked.isSome = true → s.power.mode ≠ .hold → s.intake.table = [] → s.intake.busy = none → s.dbg.freeze = 0 →
      s.dbg.lanesFrozen = false →
      exec (.engineStopTimeout e) s = .next (logEvent 0x8002 [e, x.pc.toNat, x.sb.length]
        (s.setEng e (Engine.clocked s.time fun x => { x with state := .wedged, stopAsked := none, haltAsked := none }))))

/-! ### The command intake (02) -/

/-- R46, R56, R57, R64, R66 and T2.7: a packet whose sender still awaits a reply is not submitted, one before the end of its
sender's retry count or to an intake that is taken loses, and one that the arbiter does not grant among the requests of the
cycle joins them (assumption log 1). A granted command is checked step by step and the first failure answers it: BAD_LENGTH,
BAD_PARAM for its flags, NOT_IN_MODE, LOCKED_OUT, AUTH_FAIL for a missing trailer outside Blank, then what its card's state
and parameter checks say; where every check passes it executes and is answered. Every Spatu command but RETURN_UNLOCK is
meant. -/
def Obligations.CommandChecks : Prop :=
  ∀ (i : Instr) (card : Card) (c : Cmd) (s : State), commandOf i = some (card, c) →
    let p : Packet := { opcode := card.opcode, cmd := c }
    let v := expireHeld s
    let ready := v.intake.opened = true ∧ v.sourceExists c.port c.source = true ∧ (v.space c.port c.source).reqBusy = false
    let free := ready ∧ (v.space c.port c.source).retryUntil ≤ v.time ∧ v.intakeFree c = true
    let w := (spiTurn c.port v).setSpace c.port c.source fun sp => { sp with reqBusy := true }
    let wins := (request p (takeRanks w)).chosen = some p
    let u := loseAll (grant p w)
    let answers (st : BitVec 16) : Prop := exec i s = .next (replyTo p none st [] u)
    let permitted := portPermits card c.port u = true ∧ modePermits card c u = true
    (¬ ready → exec i s = .next v) ∧
    (ready → ¬ free → exec i s = .next (loseAlone p w)) ∧
    (free → ¬ wins → exec i s = .next (request p w)) ∧
    (free → wins →
      (sizeOk card c = false → answers Status.badLength) ∧
      (sizeOk card c = true → flagsOk c = false → answers Status.badParam) ∧
      (sizeOk card c = true → flagsOk c = true → ¬ permitted → answers Status.notInMode) ∧
      (sizeOk card c = true → flagsOk c = true → permitted → (u.cport c.port.val).lockedOut = true →
        card.critical = true ∨ c.trailer = true → answers Status.lockedOut) ∧
      (sizeOk card c = true → flagsOk c = true → permitted → (u.cport c.port.val).lockedOut = false →
        c.trailer = false → card.critical = true → u.secAxis ≠ .blank →
        exec i s = .next (replyTo p none Status.authFail [] (authFail card p u))) ∧
      (∀ st, sizeOk card c = true → flagsOk c = true → permitted → c.trailer = false → card.critical = false →
        commonState card c none u = some st → c.lockEnd = false →
        exec i s = .next (replyTo p none st (if st = Status.backoff then leBytes 4 1024 else []) (card.onFail c st u)))) ∧
    (∀ auth w, admission card c s = some (auth, w) → exec i s = .next (giveAnswer p auth (execute card c auth w).1 (execute card c auth w).2))

/-- R51 to R56, 14 R465 to R467 and R471: no command executes without what its class and the part's mode ask for: in
Quarantine only identity and reset commands, in the return state only DEV_IDENT, DEV_INVENTORY and RETURN_UNLOCK, outside
Blank no critical command without a trailer, and no trailer whose counter does not exceed the stored one, which it then
becomes; an engine sends no security or reset command, the guest only identity commands. -/
def Obligations.OnlyPermittedCommandsExecute : Prop :=
  ∀ (i : Instr) (card : Card) (c : Cmd) (s u : State) (auth : Auth), commandOf i = some (card, c) →
    admission card c s = some (auth, u) →
    let v := expireHeld s
    let counter (t : State) (k : Nat) : W64 := SMap.look 0 t.intake.counters k
    (u.secAxis = .quarantine → card.cls = .identity ∨ card.cls = .reset) ∧
    (u.evr.returnState = true → card.opcode = 0x0100 ∨ card.opcode = 0x0101) ∧
    (card.critical = true → u.secAxis ≠ .blank → c.trailer = true ∧ auth.isSome = true) ∧
    (c.trailer = true → (counter v c.keySlot).toNat < c.counter % 2 ^ 64 ∧ counter u c.keySlot = BitVec.ofNat 64 c.counter ∧
      (∀ k, k ≠ c.keySlot → counter u k = counter v k) ∧
      (Crypto.cmac (v.trailerKey card c) { opcode := card.opcode, cmd := c : Packet }.macInput).take 8 = c.mac) ∧
    (c.trailer = false → auth = none ∧ u.intake.counters = v.intake.counters) ∧
    (c.port = 5 → card.cls ≠ .security ∧ card.cls ≠ .reset) ∧ (c.port = 7 → card.cls = .identity) ∧
    u.intake.opened = true ∧ v.intake.busy = none ∧
    (∀ l, v.intake.lock = some l → l.port = c.port ∧ l.source = c.source) ∧
    (card.background c = true → v.intake.table.length < 16)

/-- R42, R45, R48 to R50: the reply of a packet on a port of one source goes to its free reply space with the packet's tag,
its opcode, the status and the data, log_ro as the log stands, and a trailer exactly where the packet consumed a counter,
under that counter; the port may then submit again, and a PCIe controller signals its message. Where the space is taken the
reply waits behind the others. R60 to R63, R68: an answer with data replies it and gives back the entry; ACCEPTED keeps the
entry and replies; a held answer replies nothing and holds the intake, for 2 ms where its card says so. OK and ACCEPTED
start the locked sequence that the packet asks for, any other status starts none. -/
def Obligations.RepliesAndAnswers : Prop :=
  (∀ (p : Packet) (auth : Auth) (st : BitVec 16) (data : List Byte) (s : State), p.cmd.port.val < 4 →
      let t := replyTo p auth st data s
      let old := s.space p.cmd.port p.cmd.source
      let new := t.space p.cmd.port p.cmd.source
      ∃ r : Reply, r.tag = p.cmd.tag ∧ r.status = st ∧ r.opcode = p.opcode ∧ r.data = data ∧ r.notification = false ∧
        r.logRo = s.evr.readonly ∧ r.trailer.map (·.1) = auth.map (·.1) ∧ new.reqBusy = false ∧
        (old.current = none → new.current = some r ∧ new.waiting = old.waiting ∧
          (p.cmd.port.val < 2 → SMap.look 0 t.intake.msi p.cmd.port.val = SMap.look 0 s.intake.msi p.cmd.port.val + 1)) ∧
        (∀ q, old.current = some q → new.current = some q ∧ new.waiting = old.waiting ++ [r] ∧ t.intake.msi = s.intake.msi) ∧
        (∀ port source, srcKey port source ≠ srcKey p.cmd.port p.cmd.source → t.space port source = s.space port source) ∧
        t.intake.table = s.intake.table ∧ KeptBut [.intake] s t) ∧
  (∀ (p : Packet) (auth : Auth) (s : State),
      let c := p.cmd
      let locked := beginLock p s
      (c.lockBegin = true → locked.intake.lock =
        some { port := c.port, source := c.source, opcode := p.opcode, start := s.time }) ∧
      (c.lockBegin = false → locked = s) ∧
      (∀ st data, (giveAnswer p auth (.reply st data) s).intake.table =
          s.intake.table.filter (fun e => !e.isFor c.port c.source c.tag) ∧
        (st = Status.ok → (giveAnswer p auth (.reply st data) s).intake.lock = locked.intake.lock) ∧
        (st ≠ Status.ok → (giveAnswer p auth (.reply st data) s).intake.lock = s.intake.lock)) ∧
      giveAnswer p auth .accepted s = replyTo p auth Status.accepted [] locked ∧
      (∀ limit, (∀ e, s.entry c.port c.source c.tag = some e → e.done = false) →
        (giveAnswer p auth (.held limit) s).intake.busy =
          some { packet := p, auth, deadline := if limit then some (s.time + 200000) else none } ∧
        KeptBut [.intake] s (giveAnswer p auth (.held limit) s) ∧
        (giveAnswer p auth (.held limit) s).intake.replies = s.intake.replies))

/-- R64 to R67: a packet that arrives asks for the intake; in a cycle with the intake free the requesting port of the
highest active rank is granted and every other requesting port loses once: its packet is discarded and its retry count
doubles from 1 to 1,024; a port that withdraws in the cycle of its grant gets no reply, keeps its counts, and the cycle
stays idle. The ranks committed before take effect first. Each cycle takes one tick (the model's choice, assumption log 5).
-/
def Obligations.Arbitration : Prop :=
  ∀ (s : State), s.intake.opened = true → s.intake.busy = none → s.intake.lock = none → s.power.holdDue = none →
    let ranks := s.intake.rankPending.getD s.intake.rankActive
    let rank (p : Fin 8) : Nat := ranks.toNat / 2 ^ (4 * p.val) % 8
    ((∀ p, p < 8 → (s.cport p).requests = []) → ∃ t, exec .intakeCycle s = .next t ∧ t.time = s.time + 1 ∧
      t.intake = { s.intake with rankActive := ranks, rankPending := none } ∧ KeptBut [.intake, .time] s t) ∧
    (∀ (p o : Fin 8) (q l : Packet), p ≠ o → rank o < rank p → (s.cport p).requests = [q] → (s.cport o).requests = [l] →
      (∀ k, k < 8 → k ≠ p.val → k ≠ o.val → (s.cport k).requests = []) → q.cmd.port = p → l.cmd.port = o →
      p.val < 4 → o.val < 4 → cardOf q.opcode = none → (s.cport o).lastLoss ≠ s.time + 1 →
      ∃ t, exec .intakeCycle s = .next t ∧ t.time = s.time + 1 ∧ t.intake.lastPort = p ∧
        (t.cport p).requests = [] ∧ (t.cport p).losses = 0 ∧ (t.cport p).retry = 0 ∧
        (t.cport o).requests = [] ∧ (t.cport o).losses = (s.cport o).losses + 1 ∧
        (t.cport o).retry = (if (s.cport o).losses = 0 then 1 else min 1024 (2 * (s.cport o).retry)) ∧
        (t.space o l.cmd.source).retryUntil = s.time + (t.cport o).retry ∧ (t.space o l.cmd.source).reqBusy = false) ∧
    (∀ (p : Fin 8) (q : Packet), (s.cport p).requests = [q] → q.cmd.port = p →
      (∀ k, k < 8 → k ≠ p.val → (s.cport k).requests = []) →
      ∃ t, exec (.requestWithdraw p) s = .next t ∧ t.time = s.time + 1 ∧ (t.cport p).requests = [] ∧
        (t.cport p).losses = (s.cport p).losses ∧ (t.cport p).retry = (s.cport p).retry ∧
        (t.space p q.cmd.source).current = (s.space p q.cmd.source).current ∧ (t.space p q.cmd.source).reqBusy = false ∧
        KeptBut [.intake, .time] s t)

/-- R42 to R45, R55, R65, R69: a whole packet of at least 16 bytes arrives with its header bytes 10 to 15 as the port knows
them, a serial port collects bytes until its packet is whole and drops a partial one after the pause, a shorter packet sets
truncated; the doorbell, the acknowledge and the rank commit of the mailboxes; the end of a lockout and of a locked
sequence. -/
def Obligations.PortEvents : Prop :=
  ∀ (s : State),
    (∀ (source : BitVec 16) (bs : List Byte), s.intake.opened = true → source.toNat < 192 →
      (bs.length < 16 → exec (.packetSubmit 5 source bs) s = .next (s.setCport 5 fun x => { x with truncated := true })) ∧
      (16 ≤ bs.length → (s.space 5 source).reqBusy = false → (s.space 5 source).retryUntil ≤ s.time →
        ∃ t q, exec (.packetSubmit 5 source bs) s = .next t ∧ (t.cport 5).requests = (s.cport 5).requests ++ [q] ∧
          q.cmd.port = 5 ∧ q.cmd.source = source ∧ q.cmd.body = bs.drop 16 ∧ (t.space 5 source).reqBusy = true ∧
          KeptBut [.intake] s t)) ∧
    (∀ bs, ((s.cport 2).partialBytes ++ bs).length < 16 →
      exec (.packetSubmit 2 0 bs) s = .next (s.setCport 2 fun x => { x with partialBytes := (s.cport 2).partialBytes ++ bs })) ∧
    (∀ port : Fin 8, 2 ≤ port.val → port.val ≤ 4 → (s.cport port).partialBytes ≠ [] → exec (.serialPacketTimeout port) s =
      .next (s.setCport port fun x => { x with partialBytes := [], truncated := true })) ∧
    (∀ (ctl : Fin 2) (v : W32), v.getLsbD 0 = true → s.intake.opened = true → 16 ≤ SMap.look 0 s.intake.mbExtent ctl →
      (s.space (Fin.ofNat 8 ctl) 0).reqBusy = false → (s.space (Fin.ofNat 8 ctl) 0).retryUntil ≤ s.time →
      ∃ t q, exec (.cmdMbDoorbellSubmit ctl v) s = .next t ∧ (t.cport ctl).requests = (s.cport ctl).requests ++ [q] ∧
        q.cmd.port = Fin.ofNat 8 ctl ∧ q.cmd.source = 0 ∧ (t.space (Fin.ofNat 8 ctl) 0).reqBusy = true ∧
        SMap.look 0 t.intake.mbExtent ctl = 0 ∧ KeptBut [.intake] s t) ∧
    (∀ (ctl : Fin 2) (v : W32) (r : Reply), v.getLsbD 0 = true → (s.space (Fin.ofNat 8 ctl) 0).current = some r →
      (s.space (Fin.ofNat 8 ctl) 0).waiting = [] → exec (.cmdMbReplyTaken ctl v) s =
        .next (s.setSpace (Fin.ofNat 8 ctl) 0 fun sp => { sp with current := none })) ∧
    (∀ v : W32, v.getLsbD 0 = true → exec (.cmdRankCommit v) s =
      .next { s with intake := { s.intake with rankPending := some s.intake.rankShadow } }) ∧
    (∀ port : Fin 8, (s.cport port).lockedOut = true → ∃ t, exec (.lockoutEnd port) s = .next t ∧
      t.cport port = { s.cport port with lockedOut := false, failRun := 0 } ∧ (∀ k, k ≠ port.val → t.cport k = s.cport k) ∧
      t.time = max s.time ((s.cport port).lockoutAt + 6000000000) ∧ KeptBut [.intake, .time] s t) ∧
    (∀ l, s.intake.lock = some l → l.opcode ≠ 0x0200 → ∃ t, exec .sessionTimeout s = .next t ∧
      t.intake = { s.intake with lock := none } ∧ t.time = max s.time (l.start + 1000000000) ∧
      KeptBut [.intake, .time, .evr] s t)

/-- R62, R63, R72, 00 R7: a finished command's entry is returned and released by CMD_POLL, by its notification, or after 60
s with 0x2006 logged; the end of a domain operation's share takes the worse status; DEV_IDENT and DEV_INVENTORY answer from
one state and change nothing. -/
def Obligations.CompletionsAndIdentity : Prop :=
  ∀ (c : Cmd) (port : Fin 8) (source tag others : BitVec 16) (s : State),
    (∀ e, s.entry port source tag = some e →
      (e.done = true → exec (.completionDiscarded port source tag) s = .next (releaseEntry port source tag
        (logEvent 0x2006 [port.val, source.toNat, tag.toNat, e.status.toNat] (s.passTo (e.doneAt + 6000000000))))) ∧
      (e.done = true → e.notify = true → port.val < 4 → (s.space port source).current = none →
        ∃ t r, exec (.notificationDelivery port source tag) s = .next t ∧ (t.space port source).current = some r ∧
          r.notification = true ∧ r.tag = tag ∧ r.status = e.status ∧ r.opcode = e.opcode ∧ r.data = e.data ∧
          t.entry port source tag = none ∧ (t.space port source).reqBusy = (s.space port source).reqBusy ∧
          KeptBut [.intake] s t) ∧
      (e.done = false → ∀ st data, e.work = .domain st data → e.isFor port source tag = true → s.intake.busy = none →
        ∃ t, exec (.backgroundCompletion port source tag others) s = .next t ∧
          t.entry port source tag = some { e with
            done := true, status := if st.toNat < others.toNat then others else st, progress := 100, data := data
            doneAt := s.time } ∧ KeptBut [.intake] s t) ∧
      (e.done = true → exec (.backgroundCompletion port source tag others) s = .next s)) ∧
    Completes (.cmdPoll c) cardCmdPoll c s (fun u a t =>
      ∃ e, u.entry c.port c.source (BitVec.ofNat 16 (fieldAt c.params 0 2)) = some e ∧
        (e.done = true → t = releaseEntry c.port c.source (BitVec.ofNat 16 (fieldAt c.params 0 2)) u ∧
          a = .reply Status.ok (leBytes 2 e.tag.toNat ++ leBytes 2 e.opcode.toNat ++ leBytes 2 e.status.toNat ++ [100, 0] ++
            leBytes 4 e.data.length ++ e.data)) ∧
        (e.done = false → t = u ∧ a = .reply Status.ok (leBytes 2 e.tag.toNat ++ leBytes 2 e.opcode.toNat ++ leBytes 2 1 ++
          [e.progress, 0] ++ leBytes 4 0))) ∧
    Reads (.devIdent c) cardDevIdent c s (fun u => u.identData) ∧
    Reads (.devInventory c) cardDevInventory c s (fun u => leBytes 8 u.time ++ ((List.range 26).map u.dieRecord).flatten) ∧
    (∀ t : State, fieldAt t.identData 0 2 = 0x4D4C ∧ fieldAt t.identData 4 1 = t.part.stepping.toNat ∧
      fieldAt t.identData 5 1 = t.part.speedGrade.toNat ∧ fieldAt t.identData 6 1 = (if t.part.guestVariant then 1 else 0) ∧
      fieldAt t.identData 8 4 = t.part.fwVersion.toNat ∧ fieldAt t.identData 16 8 = t.part.uid.toNat)

/-! ### Power, clocks and reset (15) -/

/-- 15 R502, R511, R512, R525 to R528, T15.8 and 01 R29, R36: a power-on, a full reset by any of its causes and a wake start
the part again: engines, slabs, image, capture, groups, grout and intake at their reset values, the stored mode, the keys
and the counters kept; the intake opens when the steward is released. Loss of VIN, a thermal trip and Dormant switch the
part off, the personality, coping memories, engines, lanes, bond, grout and capture lost and their record left; after a trip
the part is held in reset until every sensor has cooled. -/
def Obligations.PowerStartsAndStops : Prop :=
  ∀ (s : State),
    let up := s.power.phase = .running ∨ s.power.phase = .starting
    let fresh (t : State) : Prop := t.engines = [] ∧ t.coping = Coping.reset ∧ t.cap = Cap.reset ∧ t.bond = Bond.reset ∧
      t.grout = Grout.reset ∧ t.lanes = Lanes.reset ∧ t.intake = { Intake.reset with counters := s.intake.counters } ∧
      t.cfg = { Cfg.reset with bootPins := s.part.cfgBoot } ∧ t.sec.stored = s.sec.stored ∧ t.sec.keys = s.sec.keys ∧
      t.sec.session = none ∧ t.sec.policy = s.sec.stored.policy ∧ t.power.mode = .run
    let off (t : State) : Prop := t.engines = [] ∧ t.intake.opened = false ∧ t.cfg.loaded = 0 ∧ t.cfg.frameMem = [] ∧
      t.coping = Coping.reset ∧ t.cap = Cap.reset ∧ t.bond = Bond.reset ∧ t.lanes = Lanes.reset ∧ t.grout = Grout.reset
    let lost : List Piece := [.power, .intake, .engines, .cfg, .fab, .coping, .cap, .bond, .lanes, .grout]
    (∀ v, s.power.phase ≠ .dormant → ∃ t, exec (.powerOnReset v) s = .next t ∧ fresh t ∧ t.time = 0 ∧ t.svp.vio33 = v ∧
      t.power.phase = if s.power.thermtrip then .inReset else .starting) ∧
    (up → (∀ c, c = ResetCause.resetN ∨ c = .watchdog ∨ c = .mismatch → ∃ t, exec (.fullReset c) s = .next t ∧ fresh t ∧
        t.time = s.time ∧ t.power.resetCause = c ∧ t.power.phase = .starting) ∧
      (∃ t, exec .resetNAsserted s = .next t ∧ fresh t ∧ t.power.resetCause = .resetN ∧ t.power.phase = .inReset ∧
        t.power.resetNLow = true) ∧
      (∀ a, s.frozen.getLsbD 5 = false → ∃ t, exec (.watchdogExpiry a) s = .next t ∧ fresh t ∧ t.power.resetCause = .watchdog) ∧
      (∀ a, s.frozen.getLsbD 5 = true → exec (.watchdogExpiry a) s = .next s) ∧
      (∀ a, ∃ t, exec (.stewardMismatch a) s = .next t ∧ fresh t ∧ t.power.resetCause = .mismatch) ∧
      (∃ t, exec .vinLost s = .next t ∧ off t ∧ t.power.phase = .off ∧ t.power.vin = 0 ∧ t.power.record.cause = 2 ∧
        KeptBut lost s t) ∧
      (∀ d n r, 1760 ≤ r.toInt → ∃ t, exec (.thermalTrip d n r) s = .next t ∧ off t ∧ t.power.phase = .tripped ∧
        t.power.thermtrip = true ∧ t.power.record.cause = 3 ∧ KeptBut (.evr :: lost) s t)) ∧
    (∀ p, s.power.resetDue = some (p, false) → ∃ t, exec (.fullReset .pwrReset) s = .next t ∧ fresh t ∧
      t.power.resetCause = .pwrReset ∧ t.power.resetPort = BitVec.ofNat 8 p.val) ∧
    (s.power.resetNLow = true → s.power.phase = .inReset → s.power.thermtrip = false →
      exec .resetNReleased s = .next { s with power := { s.power with resetNLow := false, phase := .starting } }) ∧
    (s.power.phase = .inReset → s.power.thermtrip = true → s.power.resetNLow = false →
      ∃ t, exec .thermalTripRelease s = .next t ∧ t.power.thermtrip = false ∧ t.power.phase = .starting ∧
        KeptBut [.power] s t) ∧
    (s.dev.role = true → s.part.guestTrains = false → ∃ t, exec .guestTrainingDeadline s = .next t ∧
      (t.die 25).state = .reset ∧ (t.die 25).held = true ∧ (t.die 25).trainFailed = true ∧
      (∀ d, d ≠ 25 → t.die d = s.die d) ∧ KeptBut [.dev, .evr] s t) ∧
    (s.power.phase = .starting → ∃ t, exec .intakeOpen s = .next t ∧ t.intake = { s.intake with opened := true } ∧
      t.power.phase = .running ∧ KeptBut [.intake, .power, .dram, .cfg, .evr] s t) ∧
    (s.power.dormantDue = true → s.cap.draining = false → ∃ t, exec .dormantEntry s = .next t ∧ off t ∧
      t.power.phase = .dormant ∧ t.power.mode = .dormant ∧ t.power.dormantDue = false ∧ t.power.record.cause = 1) ∧
    (s.power.phase = .dormant → 580 < s.power.vin.toNat →
      (s.power.wakeEn.getLsbD 0 = true → ∃ t, exec (.wake .wakeN) s = .next t ∧ fresh t ∧ t.power.resetCause = .wake) ∧
      (s.power.wakeEn.getLsbD 0 = false → exec (.wake .wakeN) s = .next s) ∧
      (∃ t, exec (.wake .tamper) s = .next t ∧ fresh t ∧ t.power.resetCause = .wake) ∧
      (s.power.wakeEn.getLsbD 1 = true → ∃ t, exec .rtcMatch s = .next t ∧ fresh t ∧ t.power.resetCause = .wake)) ∧
    (s.power.phase = .running → exec .rtcMatch s =
      .next { s with power := { s.power with rtc := s.power.rtcMatch, rtcAt := s.time } })

/-- 14 R470, R471: a tamper is recorded and logged with its policy. Where the policy is yes in Open or Sealed and the latch
is clear, the latch sets and the part is in Quarantine with the memory keys gone, the session ended and no locked sequence
left; in Blank, or where the policy is no, nothing else happens. 15 R504, R505 and T15.2: a reading above the effective cap
takes one step, first of the engines' division up to 15, then of the generators' lengthening up to 16; one below 95 % of it
takes one step back in the reverse order. With both at their limits and the power above the cap, Hold is forced with cause 1
and cap_not_met. A droop stretches a clock other than the grout's. R503, R529: a step of the supply or the droop loop moves
the island's supply by 5 mV or the threshold by 1 mV, inside its effective window, towards it from outside; nothing else
changes. (Where an island's supply and the threshold start is the model's choice, assumption log 86.) -/
def Obligations.TamperAndPowerLimits : Prop :=
  (∀ (s : State), s.power.phase = .running → s.evr.returnState = false →
      (s.sec.stored = .blank ∨ s.sec.policy.getLsbD 2 = false →
        exec .tamperAsserted s = .next (logEvent 0x2040 [2, b2n (s.sec.policy.getLsbD 2)]
          { s with sec := { s.sec with seen := setBit s.sec.seen 2 true } })) ∧
      (s.sec.stored ≠ .blank → s.sec.policy.getLsbD 2 = true →
        (s.sec.latch = true → ∃ t, exec .tamperAsserted s = .next t ∧ t.sec.latching = setBit s.sec.latching 2 true ∧
          t.sec.firstCause = s.sec.firstCause ∧ KeptBut [.sec, .evr] s t) ∧
        (s.sec.latch = false → ∃ t, exec .tamperAsserted s = .next t ∧ t.secAxis = .quarantine ∧ t.sec.firstCause = 2 ∧
          t.sec.session = none ∧ t.intake.lock = none ∧ t.power.wraps = [] ∧
          (∀ k, 16 ≤ k → SMap.look [] t.sec.keys k = []) ∧ t.sec.stored = s.sec.stored ∧ t.part = s.part))) ∧
  (∀ (w : Nat) (s : State),
      let p := s.power
      let avail := min 1700 (405 * p.vin.toNat / 1000)
      let cap := if p.mode = .trim then min p.cap.toNat avail else avail
      let steps (below : Bool) (d : BitVec 4) (g : BitVec 5) : Prop := exec (.powerLimitStep w below) s = .next { s with power :=
        { p with watts := BitVec.ofNat 16 w, engDiv := d, genStep := g, limiting := d != 0 || g != 0 } }
      let moves (v next : Nat) (l : LoopReg) (up : Bool) : Prop :=
        (v < l.effLo.toNat → next = v + 1) ∧ (l.effLo.toNat ≤ v → l.effHi.toNat < v → next = v - 1) ∧
        (l.effLo.toNat ≤ v → v ≤ l.effHi.toNat → up = true → next = min l.effHi.toNat (v + 1)) ∧
        (l.effLo.toNat ≤ v → v ≤ l.effHi.toNat → up = false → next = max l.effLo.toNat (v - 1))
      (cap < w →
        (p.engDiv ≠ 15 → steps false (p.engDiv + 1) p.genStep) ∧
        (p.engDiv = 15 → p.genStep.toNat < 16 → steps false p.engDiv (p.genStep + 1))) ∧
      (100 * w < 95 * cap →
        (p.genStep ≠ 0 → steps true p.engDiv (p.genStep - 1)) ∧
        (p.genStep = 0 → p.engDiv ≠ 0 → steps true (p.engDiv - 1) p.genStep)) ∧
      (cap < w → p.engDiv = 15 → p.genStep = 16 →
        (p.mode = .hold → exec (.holdForced w) s = .next { s with power :=
          { p with watts := BitVec.ofNat 16 w, capNotMet := true } }) ∧
        (p.mode ≠ .hold → s.cap.draining = false → s.engines = [] → s.dram.queues = [] → s.isMember = false → ∃ t, exec (.holdForced w) s = .next t ∧ t.power.mode = .hold ∧
          t.power.holdCause = 1 ∧ t.power.capNotMet = true ∧ t.part = s.part ∧ t.sec = s.sec)) ∧
      (∀ n, exec (.droopStretch (.brick n)) s = .next { s with power := { p with stretches := p.stretches + 1 } }) ∧
      exec (.droopStretch .grout) s = .next s ∧
      (∀ u up, ∃ t, exec (.adaptiveLoopStep (.island u) up) s = .next t ∧
        (∀ k, k ≠ u → t.power.supplyOf k = p.supplyOf k) ∧
        moves (p.supplyOf u) (t.power.supplyOf u) (s.loop 0) up ∧
        { t.power with supply := p.supply } = p ∧ KeptBut [.power] s t) ∧
      (∀ up, ∃ t, exec (.adaptiveLoopStep .droop up) s = .next t ∧ moves p.droop t.power.droop (s.loop 1) up ∧
        { t.power with droop := p.droop } = p ∧ KeptBut [.power] s t))

/-- 15 R513 to R520, R529 and T15.5, 04 R121 to R123: readings of the references and of the monitors, the end of a source's
locking, and the steps of the adaptive loops. An XO reading outside 2.5 % ends its run of readings, and a failure of the XO
is logged once; monitor readings with nothing to declare are recorded; missing edges declare failure, and with an alternate
at stage 0 or 1 the part switches to it; a sampling step moves one code inside its window. 04 R137, 15 R522 and 18 R586,
R587, R596: the loss of a bank's supply and its return, those of the service supply, a write of a crossbar pin, and of the
clock gates. -/
def Obligations.ClocksPinsAndSupplies : Prop :=
  (∀ (s : State),
      let c := s.clk
      (∀ ppm, c.fsel ≠ 7 → c.xoQualified = false → c.xoFailed = false →
        (ppm < -25000 ∨ 25000 < ppm → exec (.xoReading ppm) s = .next { s with clk := { c with xoReadings := [] } }) ∧
        (-25000 ≤ ppm → ppm ≤ 25000 → c.xoReadings.length < 7 →
          exec (.xoReading ppm) s = .next { s with clk := { c with xoReadings := ppm :: c.xoReadings } }) ∧
        (∃ t, exec .xoFailed s = .next t ∧ t.clk = { c with xoFailed := true } ∧ KeptBut [.clk, .evr] s t)) ∧
      (c.xoQualified = true → exec .xoFailed s = .next s ∧ ∀ ppm, exec (.xoReading ppm) s = .next s) ∧
      (∀ r : BitVec 24, r.toInt.natAbs ≤ 800 → c.mon.stage = 0 → exec (.refMonitorReading false r) s = .next { s with clk :=
        { c with mon := { c.mon with reading := r, over1 := 0, over2 := 0, good1 := c.mon.good1 + 1, good2 := c.mon.good2 + 1 } } }) ∧
      (∀ r : BitVec 24, 8000 < r.toInt.natAbs → c.alternate ≠ 15 → c.monAlt.stage ≠ 3 →
        ∃ t, exec (.refMonitorReading true r) s = .next t ∧ t.clk.monAlt.stage = 3 ∧ t.clk.monAlt.reading = r ∧
          KeptBut [.clk, .evr] s t) ∧
      (c.mon.stage ≠ 3 → c.alternate ≠ 15 → c.monAlt.stage.toNat < 2 → ∃ t, exec .refMissingEdges s = .next t ∧
        t.clk.current = c.alternate ∧ t.clk.primary = c.alternate ∧ t.clk.alternate = 15 ∧
        t.clk.switches = satAdd c.switches 1 ∧ t.freeNo = s.freeNo + 1 ∧ t.grout.rounds = s.grout.rounds + 1 ∧
        KeptBut [.clk, .grout, .bond, .evr, .freeNo] s t) ∧
      (∀ p a, c.pendingPrimary = some (p, a) → s.intake.busy = none → p = c.current →
        exec .standbyPllLocked s = .next { s with clk := { c with
          pendingPrimary := none, primary := p, alternate := a, standbyLocked := a != 15
          monAlt := if a = c.alternate then c.monAlt else {} } }) ∧
      (∀ p a, c.pendingPrimary = some (p, a) → s.intake.busy = none → p ≠ c.current → ∃ t,
        exec .standbyPllLocked s = .next t ∧ t.clk.current = p ∧ t.clk.primary = p ∧ t.clk.alternate = a ∧
        t.clk.pendingPrimary = none ∧ KeptBut [.clk, .grout, .bond] s t) ∧
      (∀ (g : SeamGroup) (up : Bool) (k : Fin 1280), s.groupRegistered g = true → s.clkActive.getLsbD (s.groupField g 1 6) = true →
        s.monitorOf g = some k →
        let code : Int := (s.sampleCode g).toNat
        let centre : Int := (s.eyeCentre g).toNat
        let l := s.loop 3
        let next := code + if up then 1 else -1
        let inside := min l.effLo.toInt (centre - 2) ≤ next ∧ next ≤ max l.effHi.toInt (centre + 2) ∧ 0 ≤ next ∧ next ≤ 31
        let move := if inside then next - centre else (s.group g).move
        ∃ t, exec (.seamSamplingStep g up) s = .next t ∧ exec (.adaptiveLoopStep (.seam g) up) s = .next t ∧
          t.group g = { s.group g with move := move } ∧ KeptBut [.fab] s t)) ∧
  (∀ (s : State),
      (∀ b : Fin 32, s.fab.vioPresent.getLsbD b = true → ∃ t, exec (.vioLost b) s = .next t ∧
        (∀ k : Fin 32, t.fab.vioPresent.getLsbD k = (s.fab.vioPresent.getLsbD k && k != b)) ∧
        (∀ k : Fin 32, t.fab.vioLost.getLsbD k = (s.fab.vioLost.getLsbD k || k == b)) ∧
        { t.fab with vioPresent := s.fab.vioPresent, vioLost := s.fab.vioLost } = s.fab ∧ KeptBut [.fab, .evr] s t) ∧
      (∀ b : Fin 32, s.fab.vioPresent.getLsbD b = false → ∃ t, exec (.vioRestored b) s = .next t ∧
        (∀ k : Fin 32, t.fab.vioPresent.getLsbD k = (s.fab.vioPresent.getLsbD k || k == b)) ∧
        { t.fab with vioPresent := s.fab.vioPresent } = s.fab ∧ KeptBut [.fab, .evr] s t) ∧
      (s.svp.vioPresent = true → ∃ t, exec .vioSvcLost s = .next t ∧ t.svp = { s.svp with vioPresent := false } ∧
        (t.cport 4).partialBytes = [] ∧ (∀ p, p ≠ 4 → t.cport p = s.cport p) ∧ KeptBut [.svp, .intake, .evr] s t) ∧
      (∀ v, s.svp.vioPresent = false → ∃ t, exec (.vioSvcRestored v) s = .next t ∧
        t.svp = { s.svp with vioPresent := true, vio33 := v } ∧ KeptBut [.svp, .evr] s t) ∧
      (∀ (i : Fin 96) (v : W32), s.pinSleeps i = false → ∃ t, exec (.crossbarPinWrite i v) s = .next t ∧
        t.svp.pin i = v &&& pinMask ∧ (∀ j, j ≠ i.val → t.svp.pin j = s.svp.pin j) ∧ KeptBut [.svp, .intake] s t) ∧
      (∀ (i : Fin 96) (v : W32), s.pinSleeps i = true → ∃ t, exec (.crossbarPinWrite i v) s = .next t ∧
        (t.svp.pin i).toNat % 256 = (s.svp.pin i).toNat % 256 ∧
        (t.svp.pin i).toNat / 256 = (v &&& pinMask).toNat / 256 ∧ KeptBut [.svp, .intake] s t) ∧
      (∀ v : W32, ∃ t, exec (.clkGateWrite v) s = .next t ∧ t.clk = { s.clk with gate := v.truncate 16 } ∧
        (v.getLsbD 12 = false → (t.cport 4).partialBytes = []) ∧ (v.getLsbD 12 = true → t.intake = s.intake) ∧
        { t.svp with gatedOut := s.svp.gatedOut } = s.svp ∧ KeptBut [.clk, .svp, .intake] s t))

/-- 15 R508, R518, R524, R525, R527, R532 to R534: what the commands of the power and clock controllers write and answer
once they are admitted; those with a unit powering down leave it OFF with its islands' bit clear and the event logged. -/
def Obligations.PowerCommands : Prop :=
  ∀ (c : Cmd) (s : State),
    let ps := c.params
    Completes (.pwrModeSet c) cardPwrModeSet c s (fun u a t =>
      u.power.mode = .run → fieldAt ps 0 1 = 1 → u.power.holdDue = none → u.power.dormantDue = false →
        u.power.modeCmds = [] → t.power.mode = .trim ∧ a = .reply Status.ok (leBytes 4 t.power.stateWord) ∧
        KeptBut [.power, .evr] u t) ∧
    Completes (.pwrTrimSet c) cardPwrTrimSet c s (fun u a t =>
      t = { u with power := { u.power with cap := BitVec.ofNat 16 (fieldAt ps 0 2) } } ∧
      a = .reply Status.ok (leBytes 4 (BitVec.ofNat 16 (fieldAt ps 0 2)).toNat)) ∧
    Completes (.pwrPolicySet c) cardPwrPolicySet c s (fun u a t =>
      let k := fieldAt ps 0 1
      (t.loop k).target = BitVec.ofNat 8 (fieldAt ps 2 1) ∧ (t.loop k).lo = BitVec.ofNat 8 (fieldAt ps 4 2) ∧
      (t.loop k).hi = BitVec.ofNat 8 (fieldAt ps 6 2) ∧
      (k = 1 → ∀ x ∈ [(t.loop 1).effTarget, (t.loop 1).effLo, (t.loop 1).effHi], 10 ≤ x.toNat ∧ x.toNat ≤ 40) ∧
      (k = 2 → (t.loop 2).effLo.toInt ≤ -4 ∧ 4 ≤ (t.loop 2).effHi.toInt) ∧
      (∀ j, j ≠ k → t.loop j = u.loop j) ∧ (∃ d, a = .reply Status.ok d) ∧ KeptBut [.power, .evr, .freeNo] u t) ∧
    Reads (.pwrStatus c) cardPwrStatus c s (fun u =>
      ((List.range 10).map fun i => leBytes 4 (u.readPwr (4 * i))).flatten ++
      ((List.range 8).map fun i => leBytes 4 (u.readPwr (0x40 + 4 * i))).flatten) ∧
    Completes (.pwrIslandSet c) cardPwrIslandSet c s (fun u a t =>
      let n := fieldAt ps 0 1
      (fieldAt ps 1 1 = 1 → a = .accepted ∧
        t = { u with power := { u.power with poweringUp := u.power.poweringUp ++ [(n, c.port, c.source, c.tag)] } }) ∧
      (fieldAt ps 1 1 = 0 → t.power.islands.getLsbD n = false ∧ (∀ i ∈ unitDies n, (t.die i).state = .off) ∧
        (∀ i, i ∉ unitDies n → t.die i = u.die i) ∧ a = .reply Status.ok (leBytes 4 t.power.islands.toNat))) ∧
    Completes (.pwrReset c) cardPwrReset c s (fun u a t => a = .reply Status.ok [] ∧
      (∃ auth, t = sendCtrl .leave { u with power := { u.power with resetDue := some (c.port, auth) } } ∧
        (c.trailer = false → auth = false) ∧ KeptBut [.power, .bond] u t)) ∧
    Completes (.clkSourceSet c) cardClkSourceSet c s (fun u a t => a = .held false ∧
      t = { u with clk := { u.clk with standbyLocked := false
                                       pendingPrimary := some (BitVec.ofNat 4 (fieldAt ps 0 1), BitVec.ofNat 4 (fieldAt ps 1 1)) } }) ∧
    Completes (.clkOutSet c) cardClkOutSet c s (fun u a t =>
      t = { u with clk := { u.clk with outSrc := BitVec.ofNat 8 (fieldAt ps 0 1), outDiv := BitVec.ofNat 16 (fieldAt ps 2 2) } } ∧
      a = .reply Status.ok (leBytes 4 t.clk.outWord)) ∧
    Reads (.clkStatus c) cardClkStatus c s (fun u => ((List.range 8).map fun i => leBytes 4 (u.readClk (4 * i))).flatten) ∧
    (∀ (n : Fin 17) (port : Fin 8) (src tag : BitVec 16), s.power.poweringUp = [(n.val, port, src, tag)] →
      ∃ t, exec (.islandPowerUpDone n) s = .next t ∧ t.power.poweringUp = [] ∧ t.power.islands.getLsbD n = true ∧
        (∀ i ∈ unitDies n, (t.die i).state = .fenced) ∧ (∀ i, i ∉ unitDies n → t.die i = s.die i) ∧
        KeptBut [.power, .dev, .fab, .evr, .intake] s t)

/-! ### Loading the personality (06) -/

/-- R189, R191, R192, R193, R195, R199: what the units of an image do when they have arrived whole. A header that passes
puts its region into reset, a full one with every brick unconfigured, a partial one with the image kept; a header, a chunk
or an image that fails ends the load with its status and cause in CFG_LAST and writes nothing. A verified chunk writes its
frames or its slab bytes and no others; a trailer that agrees with what was received starts the initialisation. R197, R198,
R201, R202, 03 R85 and 05 R172: a boot load that was asked for begins; bytes of a stream join the load and those that no session
awaits are dropped and counted. The slabs of a verified region that its image does not fill start at zero, then the release
goes through its three steps, the second and the third one step of CFG_RELEASE, as it stands at the first, after the one before;
at the second a flip-flop on a startup_hold line that is asynchronous takes its reset value, and the last step ends the
load: the region leaves reset, the bricks of a full image are loaded with its version, and 0x3013 is logged. -/
def Obligations.ImageUnitsAndRelease : Prop :=
  (∀ (l : Load) (s : State), s.cfg.load = some l →
      let u := l.rx.map (·.1)
      let kind := fieldAt u 4 1
      let n := fieldAt u 5 1
      let first := fieldAt u 8 4
      let count := fieldAt u 12 4
      let fails (i : Instr) (l' : Load) (st : BitVec 16) (cause : Nat) : Prop := ∃ t, exec i s = .next t ∧
        t.cfg.load = some { l' with phase := .failed } ∧ t.cfg.lastStatus = st ∧ t.cfg.lastCause = BitVec.ofNat 8 cause ∧
        t.cfg.frameMem = s.cfg.frameMem ∧ t.cfg.held = s.cfg.held ∧ t.cfg.loaded = s.cfg.loaded ∧ KeptBut [.cfg, .intake, .evr] s t
      let took := { l with rx := [], body := l.body ++ u, lastIndex := fieldAt u 0 4 }
      let chunk := l.phase = .writing ∧ 32 ≤ l.rx.length ∧ l.rx.length = l.need
      (l.phase = .awaitHeader → l.rx.length = 128 →
        (headerFault l u s = none → ∃ t, exec .imageHeaderReceived s = .next t ∧
          t.cfg.load = some { l with header := u, rx := [], phase := .writing, region := some (headerRegion u) } ∧
          headerRegion u ∈ t.cfg.held ∧ t.cfg.session = s.cfg.session ∧
          (isPartial u = false → t.cfg.loaded = 0 ∧ t.cfg.versions = [] ∧ t.cfg.identity = [] ∧ t.cfg.frameMem = [] ∧
            t.cfg.region = s.cfg.region) ∧
          (isPartial u = true → t.cfg.loaded = s.cfg.loaded ∧ t.cfg.frameMem = s.cfg.frameMem ∧
            t.cfg.versions = s.cfg.versions ∧ ∀ q ∈ s.cfg.held, q ∈ t.cfg.held) ∧
          KeptBut [.cfg, .fab, .coping, .grout] s t) ∧
        (∀ st cause, headerFault l u s = some (st, cause) → l.source = .host →
          fails .imageHeaderReceived { l with header := u, rx := [] } st cause)) ∧
      (chunk → kind ≠ 2 →
        (∀ out, checkChunk l l.rx s = .inr out → kind = 0 → ∃ t, exec .imageChunkReceived s = .next t ∧
          t.cfg.load = some { took with frames := l.frames + count } ∧
          (∀ i, i < out.length → SMap.look 0 t.cfg.frameMem (frameKey n first 0 + i) = nth 0 out i) ∧
          (∀ k, k < frameKey n first 0 ∨ frameKey n first 0 + out.length ≤ k →
            SMap.look 0 t.cfg.frameMem k = SMap.look 0 s.cfg.frameMem k) ∧ KeptBut [.cfg] s t) ∧
        (∀ out, checkChunk l l.rx s = .inr out → kind ≠ 0 → ∃ t, exec .imageChunkReceived s = .next t ∧
          t.cfg.load = some { took with
            slabs := l.slabs + count, gotSlabs := l.gotSlabs ++ (List.range count).map fun i => n * 25600 + first + i } ∧
          (∀ i, i < out.length → SMap.look {} t.coping.mem (slabKey n first 0 + i) = { data := nth 0 out i }) ∧
          (∀ k, k < slabKey n first 0 ∨ slabKey n first 0 + out.length ≤ k →
            SMap.look {} t.coping.mem k = SMap.look {} s.coping.mem k) ∧
          t.cfg.frameMem = s.cfg.frameMem ∧ KeptBut [.cfg, .coping] s t) ∧
        (∀ cause, checkChunk l l.rx s = .inl cause → l.source = .host →
          fails .imageChunkReceived { l with rx := [] } Status.imageAuth cause)) ∧
      (∀ out, chunk → kind = 2 → checkChunk l l.rx s = .inr out →
        (fieldAt out 0 4 = fieldAt l.header 24 4 → fieldAt out 0 4 = fieldAt u 0 4 → fieldAt out 4 4 = l.frames →
          fieldAt out 8 4 = l.slabs → l.bytes = fieldAt l.header 16 8 → zeroAt out 12 4 = true →
          Crypto.sha256 took.body = slice l.header 64 32 → imageOk took s = true →
          exec .imageTrailerReceived s = .next { s with cfg := { s.cfg with load := some { took with phase := .verifying } } }) ∧
        (l.bytes ≠ fieldAt l.header 16 8 → l.source = .host → fails .imageTrailerReceived took Status.imageTruncated 10)) ∧
      (l.unfinished = true → l.source = .host → fails .imageIdleTimeout { l with rx := [] } Status.imageTruncated 5)) ∧
  (∀ (s : State),
      (∀ fb, s.cfg.bootAsked = some fb → s.cfg.load = none → exec .bootLoadStart s = .next { s with cfg := { s.cfg with
        load := some { source := .boot fb }, bootAsked := none, frames := 0, bytes := 0 } }) ∧
      (∀ (ctl : Fin 2) (bs : List Byte), s.cfg.session = none → exec (.streamApertureWrite ctl bs) s =
        .next { s with cfg := { s.cfg with dropped := satAdd s.cfg.dropped 1 } }) ∧
      (∀ (ctl : Fin 2) (bs : List Byte) (n : CfgSession) (left : Nat) (l : Load), s.cfg.session = some n →
        n.stream = some left → n.port.val = ctl.val → s.cfg.load = some l → l.unfinished = true → bs ≠ [] →
        bs.length < left → l.rx.length + bs.length < l.need →
        exec (.streamApertureWrite ctl bs) s = .next { s with cfg := { s.cfg with
          session := some { n with stream := some (left - bs.length) }
          load := some { l with rx := l.rx ++ bs.map fun v => (v, false), bytes := l.bytes + bs.length }
          bytes := BitVec.ofNat 64 (l.bytes + bs.length) } }) ∧
      (∀ (l : Load) (r : Region), s.cfg.load = some l → l.region = some r →
        (l.phase = .verifying → ∃ t, exec .slabInitDone s = .next t ∧
          t.cfg = { s.cfg with load := some { l with phase := .releasing, released := 0 } } ∧
          (∀ n slab b, n < 8 → slab < 25600 → b < 16384 → t.cop n slab b =
            if r.covers n (slab % 160) (slab / 160) = true ∧ (s.slabCfg n slab).init = 0 then {} else s.cop n slab b) ∧
          { t.coping with mem := s.coping.mem } = s.coping ∧ KeptBut [.cfg, .coping] s t) ∧
        (l.phase = .releasing → l.released = 0 → ∃ t, exec .stagedReleaseStep s = .next t ∧
          t.cfg = { s.cfg with load := some { l with released := 1, step := s.cfg.releaseStep.toNat } } ∧ t.time = s.time ∧
          KeptBut [.cfg, .fab, .evr] s t) ∧
        (l.phase = .releasing → l.released = 1 → ∃ t, exec .stagedReleaseStep s = .next t ∧ t.time = s.time + l.step ∧
          t.cfg = { s.cfg with load := some { l with released := 2 } } ∧
          (∀ x : LeAddr, r.covers x.brick (x.u.val / 4) (x.v.val / 4) = false → t.le x = s.le x) ∧
          (∀ x : LeAddr, r.covers x.brick (x.u.val / 4) (x.v.val / 4) = true →
            let k := s.leCfg x
            let g := s.tileCfg x.tileAddr
            let onLine (sel : Nat) : Prop := (sel = 1 ∧ g.aAsync = true ∧ g.aHold = true) ∨ (sel = 2 ∧ g.bAsync = true ∧ g.bHold = true)
            (onLine k.rst0 → t.ffVal x false = k.rstVal0) ∧ (¬ onLine k.rst0 → t.ffVal x false = s.ffVal x false) ∧
            (onLine k.rst1 → t.ffVal x true = k.rstVal1) ∧ (¬ onLine k.rst1 → t.ffVal x true = s.ffVal x true)) ∧
          KeptBut [.cfg, .fab, .time] s t) ∧
        (l.phase = .releasing → l.released = 2 → l.source = .host → s.intake.busy = none →
          ∃ t, exec .stagedReleaseStep s = .next t ∧ t.cfg.load = none ∧ t.cfg.lastStatus = Status.ok ∧ t.cfg.lastCause = 0 ∧
            t.cfg.held = s.cfg.held.filter (fun q => !r.overlaps q) ∧ t.time = s.time + l.step ∧ t.cfg.frameMem = s.cfg.frameMem ∧
            (∀ n : Fin 8, t.cfg.loaded.getLsbD n =
              (s.cfg.loaded.getLsbD n || (!isPartial l.header && r.bricksOf.contains n.val))) ∧
            (∀ n : Fin 8, isPartial l.header = false → n.val ∈ r.bricksOf →
              SMap.look 0 t.cfg.versions n = BitVec.ofNat 32 (fieldAt l.header 12 4) ∧
              SMap.look [] t.cfg.identity n = slice l.header 64 16) ∧
            t.evr = s.evr.raise (s.time + l.step) { code := 0x3013, slots :=
              [fieldAt l.header 5 1, fieldAt l.header 8 1, fieldAt l.header 12 4, l.step].map (BitVec.ofNat 64 ·)
                                                    time := s.time + l.step } ∧
            KeptBut [.cfg, .fab, .cap, .time, .evr] s t)))

/-- R198, R205 to R209: what the CFG commands do once they are admitted. Image bytes that complete no unit only join it;
CFG_END answers by how far the load has come and waits for a release; it and CFG_ABORT close the session. -/
def Obligations.ConfigurationCommands : Prop :=
  ∀ (c : Cmd) (s : State),
    let ps := c.params
    let last (t : State) : List Byte := leBytes 4 t.cfg.frames.toNat ++ leBytes 4 t.cfgLast
    Completes (.cfgBegin c) cardCfgBegin c s (fun u a t => a = .reply Status.ok [] ∧ t = { u with cfg := { u.cfg with
      session := some { port := c.port, source := c.source, stream := none, fetching := false }
      load := some { source := .host }, bootAsked := none, frames := 0, bytes := 0 } }) ∧
    Completes (.cfgData c) cardCfgData c s (fun u a t =>
      let len := fieldAt ps 8 8
      (∀ l, fieldAt ps 0 1 = 0 → u.cfg.load = some l → 0 < len → l.rx.length + len < l.need →
        a = .reply Status.ok (leBytes 8 t.cfg.bytes.toNat) ∧ t = { u with cfg := { u.cfg with
          load := some { l with rx := l.rx ++ (slice ps 24 len).map fun v => (v, false), bytes := l.bytes + len }
          bytes := BitVec.ofNat 64 (l.bytes + len) } }) ∧
      (∀ n, fieldAt ps 0 1 = 1 → 0 < len → u.cfg.session = some n → a = .accepted ∧
        t = { u with cfg := { u.cfg with session := some { n with stream := some len } } }) ∧
      (∀ n, fieldAt ps 0 1 = 2 → u.cfg.session = some n → a = .accepted ∧
        t.cfg = { u.cfg with session := some { n with fetching := true } } ∧
        (t.entry c.port c.source c.tag).map (·.work) = some (.cfgFetch (BitVec.ofNat 64 (fieldAt ps 16 8)) len) ∧
        KeptBut [.cfg, .intake] u t)) ∧
    Completes (.cfgEnd c) cardCfgEnd c s (fun u a t => t.cfg.session = none ∧
      (u.cfg.load = none → a = .reply Status.ok (last u) ∧ t = { u with cfg := { u.cfg with session := none, load := none } }) ∧
      (∀ l, u.cfg.load = some l → l.source = .host →
        (l.unfinished = true → a = .reply Status.imageTruncated (last t) ∧ t.cfg.load = none ∧ t.cfg.lastCause = 6 ∧
          t.cfg.lastStatus = Status.imageTruncated ∧ t.cfg.held = u.cfg.held) ∧
        (l.phase = .failed → a = .reply u.cfg.lastStatus (last u) ∧ t = { u with cfg := { u.cfg with session := none, load := none } }) ∧
        (l.phase = .verifying ∨ l.phase = .releasing → a = .held false ∧
          t = { u with cfg := { u.cfg with session := none } }))) ∧
    Completes (.cfgAbort c) cardCfgAbort c s (fun u a t => t.cfg.session = none ∧ a = .reply Status.ok (last t) ∧
      (∀ l, u.cfg.load = some l → l.source = .host → l.unfinished = true → t.cfg.load = none ∧ t.cfg.lastCause = 7 ∧
        t.cfg.lastStatus = Status.imageTruncated ∧ t.cfg.held = u.cfg.held ∧ t.cfg.frameMem = u.cfg.frameMem)) ∧
    Completes (.cfgBoot c) cardCfgBoot c s (fun u a t => a = .accepted ∧
      t = { u with cfg := { u.cfg with bootAsked := some (fieldAt ps 0 1 == 1) } }) ∧
    Completes (.cfgReleaseSet c) cardCfgReleaseSet c s (fun u a t =>
      t = { u with cfg := { u.cfg with releaseStep := BitVec.ofNat 11 (fieldAt ps 0 2) } } ∧
      a = .reply Status.ok (leBytes 4 (BitVec.ofNat 11 (fieldAt ps 0 2)).toNat)) ∧
    Reads (.cfgStatus c) cardCfgStatus c s (fun u => leBytes 4 u.cfgState ++ leBytes 4 u.cfg.releaseStep.toNat ++
      leBytes 4 u.cfgLast ++ leBytes 4 u.cfg.frames.toNat ++ leBytes 4 (u.cfg.bytes.toNat % 2 ^ 32) ++
      leBytes 4 (u.cfg.bytes.toNat / 2 ^ 32) ++ leBytes 4 u.cfg.dropped.toNat ++
      ((List.range 8).flatMap fun n => leBytes 4 (SMap.look 0 u.cfg.versions n).toNat) ++ leBytes 4 u.cfg.region.toNat ++
      leBytes 4 u.cfg.regionBrick.toNat)

/-! ### Fabric, seams and coping memory (03 to 05) -/

/-- 03 R76, R82 to R86 (T3.6), 04 R111 to R114, R128 and R134 to R136: what decides a flip-flop at one instant, from its reset
lines, the restore strobe, the active edge of its tile clock and its clock enable, by rank; the other flip-flop, the memory
and every other logic element stay. A line deasserted inside the recovery and removal window gives the reset value or what
the ranks say. An unconnected clock enable is 1, any other unconnected pin 0, and a tile clock without a line has no edge. A
registered seam wire loads what the net on the sending side drives, 0 on a defect wire, an inactive seam or from a region
whose outputs are isolated, takes its shadow at a restore, and stays otherwise. An I/O cell without registers or in reset
keeps them; SDR and gearbox cells take their word at a rise of the cell clock, DDR ones a bit at each edge. 03 R96 to R98 and
R100: at an active edge of tclk0 with we and me every LUT RAM of the tile sets the bit that wa addresses to x0, a split one
bit wa mod 32 of each half; every shift register with me moves its bits up by one and takes x0 or the top bit of the LE
before it, a split one x1 into its upper half. Otherwise nothing changes. All pins show what the nets drove before the
instant; a pin that a loop of logic leaves open is free (assumption log 71). -/
def Obligations.FabricFlipFlopsAndMemories : Prop :=
  (∀ (ev : FabEvent) (s0 : State),
      let s := s0.openEdge ev
      (∀ (x : LeAddr) (ff1 : Bool),
        let p := s.ffPins ev x ff1
        let c := s.leCfg x
        let t := s.tileCfg x.tileAddr
        let stage := s.leStage x
        let sel := if ff1 then c.rst1 else c.rst0
        let init := if ff1 then c.init1 else c.init0
        let rstVal := if ff1 then c.rstVal1 else c.rstVal0
        let line := (sel = 1 ∧ (p.trA = true ∨ (t.aHold = true ∧ stage < 3))) ∨ (sel = 2 ∧ (p.trB = true ∨ (t.bHold = true ∧ stage < 3)))
        let isAsync := (sel = 1 ∧ t.aAsync = true) ∨ (sel = 2 ∧ t.bAsync = true)
        let updates (ok : Bool → Prop) : Prop := ∃ u, exec (.ffUpdate (.le x ff1) ev) s0 = .next u ∧ ok (u.ffVal x ff1) ∧
          u.ffVal x (!ff1) = s.ffVal x (!ff1) ∧ u.leMem x = s.leMem x ∧ (∀ ff, u.ffShadow x ff = s.ffShadow x ff) ∧
          (∀ y : LeAddr, y.key ≠ x.key → u.le y = s.le y) ∧ { u.fab with les := s.fab.les, gates := s.fab.gates } = s.fab ∧
          KeptBut [.fab, .freeNo] s0 u
        let loads := if p.edge && p.ce then s.ffData x ff1 p else s.ffVal x ff1
        let src (i : Nat) : Option PinSrc := s.sinkSrc x.tileAddr i
        (stage < 2 → updates (· = init)) ∧
        (2 ≤ stage → line → isAsync → updates (· = rstVal)) ∧
        (2 ≤ stage → ¬ (line ∧ isAsync) → ev.inWindow = false ∨ ¬ isAsync →
          (ev.restore = true → updates (· = s.ffShadow x ff1)) ∧
          (ev.restore = false → p.edge = true → line → updates (· = rstVal)) ∧
          (ev.restore = false → p.edge = false ∨ ¬ line → updates (· = loads))) ∧
        (2 ≤ stage → ¬ line → isAsync → ev.inWindow = true → ev.restore = false →
          updates fun v => v = rstVal ∨ v = loads) ∧
        (src (11 * x.k.val + 8 + b2n ff1) = none → p.ce = true) ∧ (src (11 * x.k.val + 6 + b2n ff1) = none → p.x = false) ∧
        (src 176 = none → p.trA = false) ∧ (src 177 = none → p.trB = false) ∧
        (∀ v, src (11 * x.k.val + 8 + b2n ff1) = some (.const v) → p.ce = v) ∧
        ((if (if ff1 then c.clk1 else c.clk0) then t.src1 else t.src0) = 127 → p.edge = false)) ∧
      (∀ (g : SeamGroup) (w : Fin 32),
        let at_ := g.rxCourse
        let from_ := courseOf (txCourse g)
        let edge := (s.globalEdge ev (s.groupField g 1 6)).1
        let dark := s.seamInactive g.seam = true ∨ (s.group g).defects.getLsbD w = true
        let updates (v : Bool) : Prop := ∃ u, exec (.ffUpdate (.seam g w) ev) s0 = .next u ∧ u.seamReg g w = v ∧
          (∀ k : Fin 32, k ≠ w → u.seamReg g k = s.seamReg g k) ∧
          (∀ h : SeamGroup, h.key ≠ g.key → ∀ k, u.seamReg h k = s.seamReg h k) ∧ KeptBut [.fab, .freeNo] s0 u
        (bitAt (s.groupField g 0 32) w = false → exec (.ffUpdate (.seam g w) ev) s0 = .next s.stepFree) ∧
        (bitAt (s.groupField g 0 32) w = true → s.stage at_.1 at_.2.1 at_.2.2 < 2 → updates false) ∧
        (bitAt (s.groupField g 0 32) w = true → 2 ≤ s.stage at_.1 at_.2.1 at_.2.2 →
          (ev.restore = true → updates ((SMap.look 0 s.fab.seamShadow g.key).getLsbD w)) ∧
          (ev.restore = false → edge = false → updates (s.seamReg g w)) ∧
          (ev.restore = false → edge = true → dark ∨ s.courseHeld from_ = true → updates false) ∧
          (ev.restore = false → edge = true → ¬ dark → updates (s.tilePin w (.net from_ (.seam g w)))))) ∧
      (∀ (b : Fin 32) (pin : Fin 48),
        let cfg := s.ioCfg b pin
        let c := ioCourse b pin
        let rise := (s.selEdge ev c cfg.clkSel).1
        let fall := (s.selEdge ev c cfg.clkSel).2
        let out (i : Nat) : Bool := s.tilePin i (.net c (.io b pin (Fin.ofNat 9 i)))
        let line (i : Nat) : Bool := ev.high.contains (.io b pin (Fin.ofNat 8 i))
        let w := if cfg.reg = 3 then 8 else cfg.reg
        let updates (ok : IoReg → Prop) : Prop := ∃ u, exec (.ffUpdate (.io b pin) ev) s0 = .next u ∧ ok (u.ioReg b pin) ∧
          (∀ k j, 48 * k.val + j.val ≠ 48 * b.val + pin.val → u.ioReg k j = s.ioReg k j) ∧
          { u.fab with io := s.fab.io } = s.fab ∧ KeptBut [.fab, .freeNo] s0 u
        let live := cfg.reg ≠ 0 ∧ s.courseHeld c = false
        (¬ live → updates (· = s.ioReg b pin)) ∧
        (live → rise = false → fall = false ∨ cfg.reg ≠ 2 → updates (· = s.ioReg b pin)) ∧
        (live → rise = false → fall = true → cfg.reg = 2 →
          updates (· = { s.ioReg b pin with inp := setBit (s.ioReg b pin).inp 1 (line 0) })) ∧
        (live → rise = true → updates fun r => r.oe = out 8 ∧ (∀ i, i < 8 → r.out.getLsbD i = (decide (i < w) && out i)) ∧
          (cfg.reg = 2 → r.inp = setBit (s.ioReg b pin).inp 0 (line 0)) ∧
          (cfg.reg ≠ 2 → ∀ i, i < 8 → r.inp.getLsbD i = (decide (i < w) && line i))))) ∧
  (∀ (t : TileAddr) (same : Bool) (edges : LineEdges) (high : List FabIn) (s0 : State),
      let ev := edgeEvent same edges high
      let s := s0.openEdge ev
      let old := s.atEdge
      let edge := s.memEdge ev t
      let we := s.tilePin 48 (.sink t 178)
      let wa := (s.writeAddr t).toNat
      let becomes (i : Instr) (bit : Fin 16 → Nat → Bool) : Prop := ∃ u, exec i s0 = .next u ∧
        (∀ k b, b < 64 → (u.leMem (t.le k)).getLsbD b = bit k b) ∧ (∀ x ff, u.ffVal x ff = s.ffVal x ff) ∧
        (∀ y : LeAddr, y.tileAddr ≠ t → u.le y = s.le y) ∧
        { u.fab with les := s.fab.les, gates := s.fab.gates } = s.fab ∧ KeptBut [.fab, .freeNo] s0 u
      let on (k : Fin 16) (mode : Nat) : Bool :=
        edge && (s.leCfg (t.le k)).mode == mode && s.memPin t k 10 && decide (2 ≤ s.leStage (t.le k))
      (becomes (.lutRamWrite t same edges.rises edges.falls edges.regional high) fun k b =>
        let c := s.leCfg (t.le k)
        let was := (old.leMem (t.le k)).getLsbD b
        if on k 2 && we then
          (if c.split then (if b = wa % 32 then s.memPin t k 6 else if b = 32 + wa % 32 then s.memPin t k 7 else was)
           else if b = wa then s.memPin t k 6 else was)
        else (s.leMem (t.le k)).getLsbD b) ∧
      (becomes (.shiftRegisterShift t same edges high) fun k b =>
        let c := s.leCfg (t.le k)
        let d := if c.cascade then (old.leMem (t.le (k - 1))).getLsbD 63 else s.memPin t k 6
        if on k 3 then
          (if b = 0 then d else if c.split && b == 32 then s.memPin t k 7 else (old.leMem (t.le k)).getLsbD (b - 1))
        else (s.leMem (t.le k)).getLsbD b))

/-- 04 R138 to R144: on a port that is not held and whose clock toggles, the oldest target request is delivered to the
fabric under a tag of its own and one that waits at the port takes its place in the FIFO, the fabric's response answers the
request of that tag, an initiator request is taken while a response can be reserved for it, and the oldest response leaves.
On any other port no beat moves. -/
def Obligations.FabricPorts : Prop :=
  ∀ (q : Fin 512) (op : GOp) (addr : Addr) (len : BitVec 8) (tag : BitVec 6) (en : BitVec 256) (err : Bool) (data : List Byte)
      (poison : BitVec 4) (s : State),
    let p := s.port q
    let r : GReq := { src := portEp q.val, master := 0, op, addr, len, tag := tag.zeroExtend 10, byteEn := en, data, poison, mgmt := false }
    (s.portMoves q = false → ∀ i ∈ [Instr.tqRequest q, .trResponse q tag err data poison, .iqRequest q op addr len tag en data poison,
      .irResponse q], exec i s = .next s) ∧
    (s.portMoves q = true →
      (∀ h rest, p.tq = h :: rest → p.delivered.length < 64 → ∃ t : BitVec 6, (∀ b ∈ p.delivered, b.tag ≠ t) ∧
        exec (.tqRequest q) s = .next (s.setPort q fun x => { x with
          tq := rest ++ x.door.take 1, door := x.door.drop 1, delivered := x.delivered ++ [{ req := h, tag := t }] })) ∧
      (∀ b rest, p.delivered = b :: rest → b.tag = tag →
        let u := s.setPort q fun x => { x with delivered := rest }
        exec (.trResponse q tag err data poison) s = .next (
          if err then answer b.req 6 [] 0 u
          else match b.req.op with
            | .read => answer b.req 0 (padTo (b.req.len.toNat + 1) data) poison u
            | .write => answer b.req 0 [] 0 u)) ∧
      (p.ir.length + p.iq.length < 16 → s.frozen.getLsbD 0 = false → exec (.iqRequest q op addr len tag en data poison) s =
        .next (groutRequest r (s.setPort q fun x => { x with iq := x.iq ++ [(tag, r)] }))) ∧
      (p.ir.length + p.iq.length = 16 → exec (.iqRequest q op addr len tag en data poison) s = .next s) ∧
      exec (.irResponse q) s = .next (s.setPort q fun x => { x with ir := x.ir.drop 1 }))

/-- 05 R152 to R159, T5.5, for slabs alone with two byte-wide ports and no throttling: an enabled write stores its byte with
its poison, the winner's where both ports write one; a read of a clean byte delivers after one edge, without an output
register, the byte before a write in mode 0 and the byte written in mode 1, and in mode 2 a write leaves the output. Nothing
else of the memory changes, and other ports keep their outputs. 05 R165, R166: the window of a brick reads its slabs byte by
byte and writes the enabled bytes with their poison, each byte of a run and no other; an offset past the slabs answers
NO_TARGET, and a die that is absent, or a slab in a partial's region, ISOLATED. -/
def Obligations.CopingAccesses : Prop :=
  (∀ (n : Fin 8) (slab : Fin 25600) (qa qb : SlabReq) (s : State),
      let cfg := s.slabCfg n slab
      let pa := s.slabPort n slab 0
      let writes (q : SlabReq) (i : Nat) : Prop := q.en = true ∧ q.be.getLsbD 0 = true ∧ q.addr % 16384 = i
      let wrote (q : SlabReq) : MByte := MByte.store (BitVec.ofNat 8 q.din.toNat) (q.pin.getLsbD 0)
      let i := qa.addr % 16384
      cfg.use = 1 → cfg.casLen = 0 → cfg.simple = false → cfg.a.width = 3 → cfg.b.width = 3 → cfg.a.clkSel ≠ 127 → cfg.b.clkSel ≠ 127 →
      2 ≤ s.stage n (slab % 160) (slab / 160) → pa.thr = 0 → (s.slabPort n slab 1).thr = 0 →
      (∃ t, exec (.slabPortAccess n slab (some qa) (some qb)) s = .next t ∧ KeptBut [.coping, .evr] s t ∧
        (∀ k, (writes qa k → ¬ writes qb k ∨ cfg.winnerB = false → t.cop n slab k = wrote qa) ∧
          (writes qb k → ¬ writes qa k ∨ cfg.winnerB = true → t.cop n slab k = wrote qb) ∧
          (¬ writes qa k → ¬ writes qb k → t.cop n slab k = s.cop n slab k)) ∧
        (∀ m o k, slabKey m o k / 16384 ≠ slabKey n slab 0 / 16384 → t.cop m o k = s.cop m o k)) ∧
      (qa.en = true → cfg.a.outreg = false → pa.pipe = [] → (s.cop n slab i).chk = .clean →
        ∃ t, exec (.slabPortAccess n slab (some qa) none) s = .next t ∧ t.slabPort n slab 1 = s.slabPort n slab 1 ∧
          (qa.be.getLsbD 0 = false ∨ cfg.a.wmode = 0 → (t.slabPort n slab 0).dout = BitVec.ofNat 128 (s.cop n slab i).data.toNat ∧
            (t.slabPort n slab 0).pout = 0) ∧
          (qa.be.getLsbD 0 = true → cfg.a.wmode = 1 → qa.pin = 0 →
            (t.slabPort n slab 0).dout = BitVec.ofNat 128 (qa.din.toNat % 256)) ∧
          (qa.be.getLsbD 0 = true → cfg.a.wmode = 2 → (t.slabPort n slab 0).dout = pa.dout ∧ (t.slabPort n slab 0).pout = pa.pout))) ∧
  (∀ (r : GReq) (s : State),
      let n := r.addr.toNat / 2 ^ 29 % 8
      let o := r.addr.toNat % 2 ^ 29
      let len := r.len.toNat + 1
      let byte (t : State) (k : Nat) : MByte := SMap.look {} t.coping.mem (n * 2 ^ 29 + k)
      (0x19000000 ≤ o → exec (.copingWindowAccess r) s = .next (answer r 5 [] 0 s)) ∧
      (o < 0x19000000 → s.dieAbsent n = true ∨ s.slabInPartial n (o / 16384) = true →
        exec (.copingWindowAccess r) s = .next (answer r 2 [] 0 s)) ∧
      (o < 0x19000000 → s.dieAbsent n = false → s.slabInPartial n (o / 16384) = false →
        (r.op = .read → (∀ i, i < len → (byte s (o + i)).chk = .clean) → exec (.copingWindowAccess r) s =
          .next (answer r 0 ((List.range len).map fun i => (byte s (o + i)).data) 0 s)) ∧
        (r.op = .write → ∃ u, exec (.copingWindowAccess r) s = .next (answer r 0 [] 0 u) ∧ KeptBut [.coping] s u ∧
          { u.coping with mem := s.coping.mem } = s.coping ∧
          (∀ i, i < len → r.byteEn.getLsbD (r.addr.toNat % 256 + i) = true → byte u (o + i) =
            MByte.store (nth 0 r.data i) (r.poison.getLsbD ((r.addr.toNat % 256 + i) / 64))) ∧
          (∀ k, (k < n * 2 ^ 29 + o ∨ n * 2 ^ 29 + o + len ≤ k ∨
              r.byteEn.getLsbD (r.addr.toNat % 256 + (k - (n * 2 ^ 29 + o))) = false) →
            SMap.look {} u.coping.mem k = SMap.look {} s.coping.mem k))))

/-- 05 R173 to R178: a tick of a walk reads its line, corrects a single-bit error in place, poisons an uncorrectable byte
and goes to the next line; a sample of the sensors moves each die's throttle state by the thresholds of Table 5.7; a write
of CPG_CNT_CLEAR clears the counters of the dies it names. -/
def Obligations.CopingUpkeep : Prop :=
  ∀ (s : State),
    (∀ die : Fin 8,
      let line := SMap.look 0 s.coping.scrubPos die
      let at_ (i : Nat) : Nat := die * 2 ^ 29 + 16 * line + i
      (s.scrubs die = false → exec (.scrubTick die) s = .next s) ∧
      (s.scrubs die = true → line + 1 < 26214400 → ∃ t, exec (.scrubTick die) s = .next t ∧
        SMap.look 0 t.coping.scrubPos die = line + 1 ∧
        (∀ i, i < 16 → SMap.look {} t.coping.mem (at_ i) =
          let m := SMap.look {} s.coping.mem (at_ i)
          match m.chk with
          | .oneBit b => { data := if b.val < 8 then m.data ^^^ BitVec.ofNat 8 (2 ^ b.val) else m.data }
          | .bad => { data := m.data, chk := .poison }
          | _ => m) ∧
        (∀ k, k < at_ 0 ∨ at_ 16 ≤ k → SMap.look {} t.coping.mem k = SMap.look {} s.coping.mem k) ∧
        KeptBut [.coping, .evr] s t) ∧
      (s.scrubs die = true → line + 1 = 26214400 → ∃ t, exec (.scrubTick die) s = .next t ∧
        SMap.look 0 t.coping.scrubPos die = 0 ∧
        SMap.look 0 t.coping.scrubPasses die = satAdd (SMap.look 0 s.coping.scrubPasses die) 1 ∧ KeptBut [.coping, .evr] s t)) ∧
    (∀ readings : List (Nat × BitVec 16),
      let u := readings.foldl (fun s r => noteTemp (r.1 / 16) (r.1 % 16) r.2 s) s
      let moves (st : Nat) (t : Int) : Nat := if 1632 < t then 2
        else if st = 0 then (if 1520 < t then 1 else 0) else if st = 1 then (if t < 1472 then 0 else 1) else if t < 1584 then 1 else 2
      ∃ t, exec (.throttleSample readings) s = .next t ∧ t.coping.mem = s.coping.mem ∧
        (∀ n, n < 8 → t.throttleOf n = moves (s.throttleOf n) (u.hottest n).2.toInt ∧
          SMap.look 0x190 t.coping.throttleTemp n = (u.hottest n).2) ∧
        KeptBut [.coping, .power, .evr] s t) ∧
    (∀ v : W32, ∃ t, exec (.cpgCntClear v) s = .next t ∧ KeptBut [.coping] s t ∧ t.coping.mem = s.coping.mem ∧
      ∀ n, n < 8 →
        (v.getLsbD n = true → SMap.look 0 t.coping.ce n = 0 ∧ SMap.look 0 t.coping.ue n = 0 ∧ SMap.look 0 t.coping.poison n = 0 ∧
          SMap.look 0 t.coping.lastErr n = 0) ∧
        (v.getLsbD n = false → SMap.look 0 t.coping.ce n = SMap.look 0 s.coping.ce n ∧
          SMap.look 0 t.coping.ue n = SMap.look 0 s.coping.ue n ∧ SMap.look 0 t.coping.poison n = SMap.look 0 s.coping.poison n))

/-- 04 R146, R147 and 05 R179, R180: FAB_SEAM_REPAIR moves a named wire onto a free spare (what it counts then is the
model's free value, assumption log 64), tests up to 16 groups at once, each in 50 µs, and more in the background;
FAB_STATUS, CPG_SCRUB_SET and CPG_STATUS. -/
def Obligations.FabricCommands : Prop :=
  ∀ (c : Cmd) (s : State),
    let ps := c.params
    Completes (.fabSeamRepair c) cardFabSeamRepair c s (fun u a t =>
      let g := groupAt (fieldAt ps 0 1) (fieldAt ps 1 1) (fieldAt ps 4 2)
      let count := fieldAt ps 6 2
      (fieldAt ps 2 1 = 1 → (t.group g).spareUsed = true ∧ (t.group g).repaired = BitVec.ofNat 5 (fieldAt ps 3 1) ∧
        (t.group g).defects = (u.group g).defects ∧
        (∀ h : SeamGroup, h.key ≠ g.key → { t.group h with frozenSeen := (u.group h).frozenSeen } = u.group h) ∧
        t.time = u.time + 5000 ∧ KeptBut [.fab, .time, .evr, .freeNo] u t) ∧
      (fieldAt ps 2 1 = 0 → count ≤ 16 → u.part.seamFaults = [] →
        (∀ h, { t.group h with frozenSeen := (u.group h).frozenSeen } = u.group h) ∧ t.time = u.time + 5000 * count ∧
        { t.fab with groups := u.fab.groups } = u.fab ∧ KeptBut [.fab, .time, .evr] u t ∧ a = .reply Status.ok (leBytes 2 count ++ leBytes 2 0 ++ leBytes 2 0 ++ leBytes 2 0)) ∧
      (fieldAt ps 2 1 = 0 → 16 < count → a = .accepted ∧ t.fab = { u.fab with repairing := true } ∧ KeptBut [.fab, .intake] u t)) ∧
    Reads (.fabStatus c) cardFabStatus c s (fun u => if fieldAt ps 0 1 = 0 then u.fabSummary else
      (List.range (fieldAt ps 6 2)).flatMap fun i => leBytes 8 (u.groupRecord (groupAt (fieldAt ps 1 1) (fieldAt ps 2 1) (fieldAt ps 4 2 + i)))) ∧
    Completes (.cpgScrubSet c) cardCpgScrubSet c s (fun u a t =>
      (∀ k, k < 8 → t.coping.scrubCtl.getLsbD (16 + k) = (nth 0 ps 0).getLsbD k ∧ t.coping.scrubCtl.getLsbD k = (nth 0 ps 1).getLsbD k) ∧
      a = .reply Status.ok (leBytes 4 t.coping.scrubCtl.toNat) ∧ { t with coping := { t.coping with scrubCtl := u.coping.scrubCtl } } = u) ∧
    Reads (.cpgStatus c) cardCpgStatus c s (fun u =>
      ((List.range 8).flatMap fun n => (List.range 8).flatMap fun i => leBytes 4 (if u.dieAbsent (8 + n) then 0 else u.cpgDie n i)) ++
      leBytes 4 u.throttleStatus ++ leBytes 4 u.coping.seen.toNat ++ leBytes 4 u.coping.scrubCtl.toNat ++ leBytes 4 0)

/-! ### Registers (00) -/

/-- R7, R8, R600: a write of the hub control space works under the register's access code: a plain register keeps its
writable bits, a write of 1 clears a flag, any write clears a counter that says so, and a read-only block ignores it. A read
of a pair's low word latches the high word, which the next read of it gives whatever the register holds by then; other reads
change nothing. A grout request reads whole words, and writes those whose four byte enables are 1. -/
def Obligations.RegisterAccess : Prop :=
  ∀ (v : W32) (o : Nat) (s : State), o < 2 ^ 24 →
    let at_ (k : Nat) : Addr := BitVec.ofNat 48 (0x3F0000000000 + k)
    exec (.registerWrite (at_ 0x050000) v) s = .next { s with coping := { s.coping with scrubCtl := v &&& 0x00FF00FF } } ∧
    exec (.registerWrite (at_ 0x040100) v) s = .next { s with fab := { s.fab with grpSel := v &&& 0xF80007FF } } ∧
    exec (.registerWrite (at_ 0x040124) v) s = .next { s with fab := { s.fab with vioLost := s.fab.vioLost &&& ~~~v } } ∧
    exec (.registerWrite (at_ 0x02001C) v) s = .next { s with cfg := { s.cfg with dropped := 0 } } ∧
    (o / 65536 ∈ [0, 6, 7, 9, 10, 13, 14, 15, 17, 18] → exec (.registerWrite (at_ o) v) s = .next s) ∧
    (∀ a : Addr, a.toNat < 0x300000000000 → exec (.registerWrite a v) s = .next s ∧ exec (.registerPairLowRead a) s = .next s) ∧
    (pairLow o = true → ∃ t, exec (.registerPairLowRead (at_ o)) s = .next t ∧ KeptBut [.latches] s t ∧
      (readHub o s).1 = BitVec.ofNat 32 (s.readHubReg o) ∧
      ∀ u : State, u.latches = t.latches → (readHub (o + 4) u).1 = BitVec.ofNat 32 (s.readHubReg (o + 4))) ∧
    (pairLow o = false → exec (.registerPairLowRead (at_ o)) s = .next s) ∧
    (∀ r : GReq, r.addr = at_ o → o % 4 = 0 → r.len = 3 →
      (r.op = .read → exec (.hubControlRequest r) s = .next (answer r 0 (leBytes 4 (readHub o s).1.toNat) 0 (readHub o s).2)) ∧
      (r.op = .write → (∀ i, i < 4 → r.byteEn.getLsbD (o % 256 + i) = true) →
        exec (.hubControlRequest r) s = .next (answer r 0 [] 0 (writeHub o (BitVec.ofNat 32 (leNat (slice r.data 0 4))) s))) ∧
      (r.op = .write → (∃ i, i < 4 ∧ r.byteEn.getLsbD (o % 256 + i) = false) →
        exec (.hubControlRequest r) s = .next (answer r 0 [] 0 s)))

/-! ### Readback, capture, restore and trace (07) -/

/-- R212, R217 to R222, R227 to R229, T7.2: at the reference edge of a part that is no domain member every shadow of a
captured brick takes what it shadows, and no flip-flop or memory changes; a light capture pauses its lines, a full one holds
them, a resume leaves them stopped; the drain begins with the valid word at 0. Where the checkpoint reaches DRAM its valid
word follows, and the capture is over with OK, its length and its edge; where every section of a restore has loaded, the
strobe puts the shadows into the flip-flops, but into none that an asynchronous reset line holds at its reset value. A domain's
restore awaits the beat of every member's checkpoint and fails with cause 4 where one is another (R250). A stop
that is due stops every DUT line at its edge and ends the commands that await it; a restart opens the gates, but not under a
full drain. -/
def Obligations.CaptureEvents : Prop :=
  ∀ (s : State), s.dbg.freeze = 0 → s.dbg.lanesFrozen = false → s.power.mode ≠ .hold → s.power.holdDue = none →
    let c := s.cap
    (∀ r, c.restore = some r → r.domain = true →
      (s.beatsAwaited = true → exec .restoreLoadDone s = .next s) ∧
      (s.beatsAwaited = false → (∃ p ∈ c.peerBeats, ∃ b, p.2 = some b ∧ b.toNat ≠ fieldAt r.head 24 8) →
        ∃ t, exec .restoreLoadDone s = .next t ∧ KeptBut [.cap, .evr, .intake] s t ∧ t.cap.restore = none ∧
          t.cap.phase = .idle ∧ t.cap.lastStatus = Status.badState ∧ t.cap.lastCause = 4 ∧ t.cap.lastRestore = true)) ∧
    (s.isMember = false →
    let ended (t : State) (restore : Bool) : Prop := t.cap.phase = .idle ∧ t.cap.lastStatus = Status.ok ∧ t.cap.lastCause = 0 ∧
      t.cap.lastRestore = restore ∧ t.part = s.part ∧ t.dev = s.dev
    let memory : List Piece := [.cap, .dram, .evr, .sec, .freeNo]
    (∀ k passed, c.capture = some k → c.phase = .awaitEdge → k.take.domain = false →
      let e := k.take.at_.getD (c.edges + BitVec.ofNat 64 passed)
      let w := strikeCapture k.take { s with cap := { c with edges := e } }
      let v := storeCounted 3 k.take.area.toNat (leBytes 4 0) w
      KeptBut [.fab, .cap] s w ∧ w.cap.edges = e ∧
      w.cap.phase = (if k.take.full then .fullDrain else if s.linesStopped || k.take.resume then .lightDrain else .pause) ∧
      w.cap.capture.map (fun x => (x.take, x.edge, x.time, x.noEdge, x.dutLines, x.runLine)) =
        some (k.take, e, BitVec.ofNat 64 s.time, s.linesStopped, c.dutLines, c.runLine) ∧
      (s.linesStopped = false → k.take.resume = false → w.cap.paused = c.dutLines &&& ~~~c.stopped ∧ w.cap.stopped = c.stopped) ∧
      (k.take.full = false → k.take.resume = true → w.cap.stopped = c.dutLines) ∧
      (∀ (x : LeAddr) (ff : Bool), w.ffVal x ff = s.ffVal x ff ∧ w.leMem x = s.leMem x ∧ (s.cfg.loaded.getLsbD x.brick = true →
        w.ffShadow x ff = s.ffVal x ff ∧ w.leMemShadow x = s.leMem x)) ∧
      w.fab.seamShadow = s.fab.seamRegs ∧ w.fab.seamRegs = s.fab.seamRegs ∧
      (v.1 = 0 → KeptBut memory w v.2.2 → v.2.2.cap = w.cap → ∃ t, exec (.captureEdge passed) s = .next t ∧
        t = { v.2.2 with cap := { w.cap with drain := BitVec.ofNat 64 v.2.1 } })) ∧
    (∀ k e, c.capture = some k → c.phase = .pause ∨ c.phase = .lightDrain ∨ c.phase = .fullDrain → k.take.domain = false →
      s.intake.busy = none → s.entry k.take.port k.take.source k.take.tag = some e →
      let q := checkpointSections k s
      let bytes := encodeCheckpoint k q.1 q.2
      let v := storeCounted 3 (k.take.area.toNat + 4) (bytes.drop 4) q.2.stepFree
      let w := storeCounted 3 k.take.area.toNat (leBytes 4 1) { v.2.2 with cap.drain := BitVec.ofNat 64 (4 + v.2.1) }
      v.1 = 0 → w.1 = 0 → KeptBut memory s w.2.2 → w.2.2.cap = { c with drain := BitVec.ofNat 64 (4 + v.2.1) } →
      ∃ t, exec .captureDrainDone s = .next t ∧ ended t false ∧ t.cap.capture = none ∧
        t.cap.drain = BitVec.ofNat 64 (4 + v.2.1) ∧
        (t.entry k.take.port k.take.source k.take.tag).map (fun e => (e.done, e.status, e.data)) = some (true, Status.ok,
          leBytes 8 bytes.length ++ leBytes 8 k.edge.toNat ++ leBytes 8 k.time.toNat ++ leBytes 4 k.busyPorts.toNat ++ leBytes 4 0)) ∧
    (∀ r secs u, c.restore = some r → r.domain = false →
      readSections r (dirOf r.head) 1 s = (.inr secs, u) → KeptBut memory s u →
      ∃ t, exec (.restoreLoadDone) s = .next t ∧ ended t true ∧ t.cap.restore = none ∧ (r.run = true → t.cap.stopped = 0) ∧
        ∀ (x : LeAddr) (ff : Bool), bitAt r.mask x.brick = true →
          let k := s.leCfg x
          let sel := if ff then k.rst1 else k.rst0
          let isAsync := (sel = 1 ∧ (s.tileCfg x.tileAddr).aAsync = true) ∨ (sel = 2 ∧ (s.tileCfg x.tileAddr).bAsync = true)
          t.ffVal x ff = t.ffShadow x ff ∨ (isAsync ∧ t.ffVal x ff = if ff then k.rstVal1 else k.rstVal0)) ∧
    (∀ passed, s.intake.busy = none → c.stopDue = true ∨ c.stopAt.isSome = true → ∃ t, exec (.dutStop passed) s = .next t ∧
      t.cap.stopped = c.dutLines ∧ t.cap.stopDue = false ∧ t.cap.stopAt = none ∧ t.cap.runCmds = [] ∧
      t.cap.edges = (if c.stopDue then c.edges + BitVec.ofNat 64 passed else c.stopAt.getD 0) ∧
      { t.fab with edgeAt := s.fab.edgeAt } = s.fab ∧ KeptBut [.cap, .intake, .fab] s t) ∧
    (∀ passed, c.stopDue = false → c.stopAt = none → exec (.dutStop passed) s = .next s) ∧
    (c.phase = .pause → exec .dutRestart s = .next { s with cap := { c with paused := 0, phase := .lightDrain } }) ∧
    (c.phase = .idle → exec .dutRestart s = .next { s with cap := { c with stopped := 0, paused := 0 } }) ∧
    (c.phase = .fullDrain → exec .dutRestart s = .next s))

/-- R236 to R244: a running collector whose line toggles takes a sample at each edge, and drops and counts it where its
buffer is full; 64 samples leave as a block for the coping store. An armed trigger unit counts the rises of its condition
and fires at the count it was given; a fired unit takes its actions once, at the third edge after the firing: stop, capture,
mark, pulse and the end of the trace; in a domain the stop and the capture are the domain's. A fabric line's level is that of
the net at its course. -/
def Obligations.TraceAndTriggers : Prop :=
  ∀ (n : Fin 8) (u : Fin 16) (passed : Nat) (active : List (BitVec 16)) (s : State),
    let c := s.coll n
    let g := s.trig u
    let quiet := s.dbg.freeze = 0 ∧ s.dbg.lanesFrozen = false ∧ s.power.holdDue = none
    (c.running = true → s.clkActive.getLsbD c.line.toNat = true → c.postCount = none →
      (c.samples.length < c.room → exec (.traceSample n) s = .next (s.setColl n fun c => { c with
        edges := c.edges + 1, lostRun := 0, markNext := false
        samples := c.samples ++ [{ bytes := s.traceSampleOf n, mark := c.markNext, edge := c.edges + 1
                                   beat := if s.isMember then s.bond.beat else 0, lost := c.lostRun }] })) ∧
      (c.room ≤ c.samples.length → ∃ t, exec (.traceSample n) s = .next t ∧ KeptBut [.cap, .evr] s t ∧
        t.coll n = { c with edges := c.edges + 1, lost := satAdd c.lost 1, lostRun := c.lostRun + 1, overflow := true })) ∧
    (c.running = false ∨ s.clkActive.getLsbD c.line.toNat = false → exec (.traceSample n) s = .next s) ∧
    (c.dram = false → 64 ≤ c.samples.length → c.wrap = false → ∃ t, exec (.traceBlockWrite n) s = .next t ∧
      t.coll n = { c with blockSeq := c.blockSeq + 1, samples := c.samples.drop 64, flush := c.flush && !(c.samples.drop 64).isEmpty } ∧
      (let blocks := s.storeBytes n c / c.blockBytes
       let off := c.blockSeq.toNat % max 1 blocks * c.blockBytes
       ∀ i k, i < (traceBlock c (c.samples.take 64)).length → (s.traceSlabs n)[(off + i) / 16384]? = some k →
         t.cop n k ((off + i) % 16384) = MByte.store (nth 0 (traceBlock c (c.samples.take 64)) i) false) ∧
      KeptBut [.cap, .coping] s t) ∧
    (c.samples.length < 64 → c.flush = false → exec (.traceBlockWrite n) s = .next s) ∧
    (quiet →
      let v : State := { s with cap := { s.cap with edges := s.cap.edges + BitVec.ofNat 64 passed } }
      let on (k : BitVec 16) : Bool := if k.toNat < 0x200 then v.trigLine k.toNat else active.contains k
      let cond := if g.combine = 0 then g.inputs.any on else g.inputs.all on
      let rise := cond && !g.last
      let count := if rise then satAdd g.count 1 else g.count
      let fires := rise && decide (max 1 g.need.toNat ≤ count.toNat)
      let sampled (t : State) : Prop := t.cap.edges = v.cap.edges ∧
        t.trig u = { g with last := cond, seqPos := 0, count, armed := !fires, fired := g.fired || fires, due := fires
                            firedAt := if fires then some v.cap.edges else g.firedAt }
      (g.armed = false → exec (.triggerSample u passed active) s = .next v) ∧
      (g.armed = true → (∀ k ∈ g.inputs, k.toNat < 0x0D00) → g.combine.toNat < 2 → g.inputs ≠ [] →
        (s.isMember = false → ∃ t, exec (.triggerSample u passed active) s = .next t ∧ KeptBut [.cap, .evr, .freeNo] s t ∧
          sampled t) ∧
        (s.isMember = true → fires = false → ∃ t, exec (.triggerSample u passed active) s = .next t ∧
          KeptBut [.cap, .freeNo] s t ∧ sampled t)) ∧
      (g.due = false → exec (.triggerFired u) s = .next s) ∧
      (∀ e, g.due = true → g.firedAt = some e →
        ∃ t, exec (.triggerFired u) s = .next t ∧ (t.trig u).due = false ∧ (t.trig u).armed = g.armed ∧
          (s.isMember = true ∨ g.actions.getLsbD 1 = false →
            t.cap.edges = if s.cap.edges.toNat < (e + 3).toNat then e + 3 else s.cap.edges) ∧
          (s.isMember = false → g.actions.getLsbD 0 = true → t.cap.stopped = s.cap.dutLines) ∧
          (s.isMember = true ∨ (g.actions.getLsbD 0 = false ∧ g.actions.getLsbD 1 = false) → t.cap.stopped = s.cap.stopped) ∧
          (s.isMember = false → g.actions.getLsbD 1 = true → s.cap.armed = none → (t.trig u).captureMissed = true) ∧
          (g.actions.getLsbD 2 = true → g.actions.getLsbD 4 = false →
            ∀ q ∈ t.cap.collectors, q.2.running = true → q.2.markNext = true) ∧
          t.cap.trigOut = s.cap.trigOut + (if g.actions.getLsbD 3 then 1 else 0) ∧
          (g.actions.getLsbD 4 = true → g.postCount = 0 → ∀ q ∈ t.cap.collectors, q.2.running = false) ∧
          (s.isMember = true → KeptBut [.cap] s t) ∧
          (s.isMember = false → g.actions.getLsbD 1 = false → s.intake.busy = none → KeptBut [.cap, .intake, .fab] s t)))

/-- R245, R246, R253 to R260: what the CAP commands do once they are admitted, on a part that is not in Hold and no domain
member: captures wait for their edge or are armed, restores load, run control starts and stops the lines, readback and
status answer from one state. -/
def Obligations.CaptureCommands : Prop :=
  ∀ (c : Cmd) (s : State),
    let ps := c.params
    let alone (u : State) : Prop := u.power.mode ≠ .hold ∧ u.isMember = false ∧ u.dbg.freeze = 0 ∧ u.dbg.lanesFrozen = false
    let edges (t : State) : List Byte := leBytes 8 t.cap.edges.toNat ++ leBytes 8 t.bond.beat.toNat
    let await (u : State) : List RunCmd :=
      u.cap.runCmds ++ [{ port := c.port, source := c.source, tag := c.tag, op := fieldAt ps 0 1 }]
    Completes (.capTake c) cardCapTake c s (fun u a t => alone u →
      (fieldAt ps 0 1 < 2 → fieldAt ps 1 1 = 2 → a = .accepted ∧ t = { u with cap := { u.cap with armed := some (takeOf c) } }) ∧
      (fieldAt ps 0 1 < 2 → fieldAt ps 1 1 < 2 → u.linesStopped = false → a = .accepted ∧ t = { u with cap := { u.cap with
        phase := .awaitEdge, capture := some { take := takeOf c } } }) ∧
      (fieldAt ps 0 1 = 2 → a = .reply Status.ok [] ∧ t.cap.armed = none ∧
        (u.cap.armed.isSome = true → t.cap.lastStatus = Status.badState ∧ t.cap.lastCause = 8) ∧ KeptBut [.cap, .intake] u t)) ∧
    Completes (.capRestore c) cardCapRestore c s (fun u a t => a = .accepted ∧ (alone u →
      let r : Restore := { port := c.port, source := c.source, tag := c.tag, slabs := (fieldAt ps 0 1).testBit 0
                           run := (fieldAt ps 0 1).testBit 1, domain := false, area := BitVec.ofNat 64 (fieldAt ps 8 8) }
      let w : State := syncOp { u with cap := { u.cap with phase := .restoreLoading, drain := 0, restore := some r } }
      (∀ h v, readHeader r (fieldAt ps 16 8) w = (.inr h, v) → t = { v with cap := { v.cap with restore := some h } }) ∧
      (∀ st cause v, readHeader r (fieldAt ps 16 8) w = (.inl (st, cause), v) → cause ≠ 10 → v.cap.restore = some r →
        t.cap.restore = none ∧ t.cap.phase = .idle ∧ t.cap.lastStatus = st ∧ t.cap.lastCause = BitVec.ofNat 8 cause ∧
        t.cap.lastRestore = true))) ∧
    Completes (.capReadback c) cardCapReadback c s (fun u a t =>
      let data := leBytes 8 u.time ++ u.readback (Fin.ofNat 8 (fieldAt ps 0 1)) (fieldAt ps 1 1) (fieldAt ps 4 4) (fieldAt ps 8 4)
      (u.secAxis ≠ .sealed → a = .reply Status.ok data ∧ t = u) ∧
      (∀ k id, u.sealKey = some (k, id) → t = { u with freeNo := u.freeNo + 1 } ∧ ∃ iv : List Byte, iv.length = 12 ∧
        a = .reply Status.ok (iv ++ Crypto.gcmCrypt k iv data ++ Crypto.gcmTag k iv [] (Crypto.gcmCrypt k iv data)))) ∧
    Completes (.capTraceSet c) cardCapTraceSet c s (fun u a t =>
      let n := fieldAt ps 0 1
      let x := u.coll n
      (fieldAt ps 1 1 = 0 → t.coll n =
        if x.running then { x with running := false, flush := !x.samples.isEmpty, postCount := none, byTrigger := false } else x) ∧
      (fieldAt ps 1 1 = 1 → t.coll n = { x with taps := [] }) ∧
      (fieldAt ps 1 1 = 2 → t.coll n = { x with taps := addTaps x.taps ps }) ∧
      (fieldAt ps 1 1 = 3 → t.coll n = x.begin ps ∧ (t.coll n).running = true ∧ (t.coll n).taps = x.taps) ∧
      a = .reply Status.ok (leBytes 4 (t.coll n).stateWord ++ leBytes 4 (t.coll n).taps.length) ∧
      (∀ k, k ≠ n → t.coll k = u.coll k) ∧ KeptBut [.cap] u t) ∧
    Completes (.capTriggerSet c) cardCapTriggerSet c s (fun u a t =>
      let n := fieldAt ps 0 1
      t.trig n = { u.trig n with
        armed := fieldAt ps 1 1 == 1, combine := BitVec.ofNat 2 (fieldAt ps 2 1), actions := BitVec.ofNat 5 (fieldAt ps 3 1)
        need := BitVec.ofNat 32 (fieldAt ps 4 4), count := 0
        inputs := (List.range 4).map fun i => BitVec.ofNat 16 (fieldAt ps (8 + 2 * i) 2)
        matchVal := BitVec.ofNat 64 (fieldAt ps 16 8), postCount := BitVec.ofNat 32 (fieldAt ps 24 4)
        seqPos := 0, last := false, firedAt := none, due := false } ∧
      a = .reply Status.ok (leBytes 4 (t.trig n).stateWord) ∧ (∀ k, k ≠ n → t.trig k = u.trig k) ∧ KeptBut [.cap] u t) ∧
    Completes (.capClockRun c) cardCapClockRun c s (fun u a t => alone u → fieldAt ps 1 1 = 0 →
      let op := fieldAt ps 0 1
      (op = 0 → u.cap.dutLines &&& ~~~u.cap.stopped = 0 → a = .reply Status.ok (edges u) ∧ t = u) ∧
      (op = 0 → u.cap.dutLines &&& ~~~u.cap.stopped ≠ 0 → a = .held true ∧
        t = { u with cap := { u.cap with stopDue := true, runCmds := await u } }) ∧
      (op = 1 → a = .reply Status.ok (edges u) ∧ t = { u with cap := { u.cap with stopped := 0, paused := 0 } }) ∧
      (op = 2 ∨ op = 4 → a = .held true ∧ t = { u with cap := { u.cap with
        stopped := 0, paused := 0, runCmds := await u
        stopAt := some (BitVec.ofNat 64 ((if op = 2 then u.cap.edges.toNat else 0) + fieldAt ps 8 8)) } }) ∧
      (op = 6 → let mask : W64 := BitVec.ofNat 64 (fieldAt ps 16 8)
        t = { u with cap := { u.cap with dutLines := mask, runLine := BitVec.ofNat 6 (fieldAt ps 2 1), edges := 0
                                         stopped := u.cap.stopped &&& mask } } ∧
        a = .reply Status.ok (edges t))) ∧
    Reads (.capStatus c) cardCapStatus c s (fun u =>
      leBytes 4 u.capState ++ leBytes 4 u.capLast ++ leBytes 8 u.cap.dutLines.toNat ++ leBytes 8 u.cap.stopped.toNat ++
      leBytes 8 u.cap.edges.toNat ++ leBytes 8 u.cap.drain.toNat ++ leBytes 8 u.bond.beat.toNat ++
      ((List.range 8).map fun n => ((List.range 4).map fun i => leBytes 4 (u.traceWord n i)).flatten).flatten ++
      ((List.range 16).map fun n => leBytes 4 (u.trig n).stateWord ++ leBytes 4 (u.trig n).count.toNat).flatten)

/-! ### The bond link (08) -/

/-- R267 to R270, R273 to R280, R282: a beat ends where the gate of every group passes: BND_BEAT goes on by one, each
incoming fold wire takes the sample that is due, and every group sends its beat frame, kept for replay, with the first domain
operation that waits in its op block. A frame in order is taken and its samples wait; a wrong CRC is counted and a NAK sent; a
frame of an earlier number does nothing but acknowledge. A NAK or the replay timer replays what is unacknowledged. A domain
operation is scheduled once and forwarded on every other UP group. Device time follows the root's by at most 10 ticks per ms. -/
def Obligations.BondBeatsAndFrames : Prop :=
  ∀ (g : Fin 32) (words : List Byte) (crc : W64) (q : Frame) (o : DomOp) (sent : W64) (s : State), s.power.holdDue = none →
    s.frozen.getLsbD 2 = s.dbg.lanesFrozen →
    let x := s.grp g
    let b := s.bond
    let bytes := words ++ leBytes 8 crc.toNat
    let f := frameOf bytes
    let offset : Int := (sent.toNat + x.tLink.toNat / 10 : Nat) - (s.time : Int)
    let elsewhere (t : State) : Prop := { t.bond with groups := b.groups } = b ∧ ∀ h, h ≠ g.val → t.grp h = s.grp h
    let spoken (y : BondGroup) : BondGroup :=
      { y with ctrlOut := x.ctrlOut, room := x.room, scramblers := x.scramblers, sent := x.sent }
    (∀ ns late, s.gatePasses = true → s.frozen.getLsbD 3 = false → (∀ h, h < 32 → (s.grp h).bufferFull = false ∧ (s.grp h).txq = []) →
      b.ops = [] → s.cap.stopBeat = none → b.pipelined = true → b.txBeat.toNat ≤ b.beat.toNat → b.beat.toNat < 2 ^ 64 - 1 →
      ∃ t, exec (.beatEdge ns late) s = .next t ∧ KeptBut [.bond, .cap, .freeNo, .fab] s t ∧
        { t.fab with edgeAt := s.fab.edgeAt } = s.fab ∧ t.cap = { s.cap with edges := s.cap.edges + BitVec.ofNat 64 s.runEdges } ∧
        t.bond.beat = b.beat + 1 ∧ t.bond.txBeat = b.beat + 1 ∧ t.bond.stretchNs = b.stretchNs + ns ∧
        t.bond.stretchBeats = (if ns = 0 then b.stretchBeats else satAdd b.stretchBeats 1) ∧
        t.bond.overruns = (if ns ≠ 0 ∧ late = true then satAdd b.overruns 1 else b.overruns) ∧
        (x.use = true → (t.grp g).sendSeq = x.sendSeq + 1 ∧ (t.grp g).recvSeq = x.recvSeq ∧ (t.grp g).state = .up ∧
          (t.grp g).opsOut = x.opsOut.drop 1 ∧
          (∃ q : Frame, (t.grp g).replayBuf = x.replayBuf ++ [q] ∧ q.kind = 0 ∧ q.seq = x.sendSeq ∧ q.ack = x.recvSeq - 1 ∧
            q.ackValid = true ∧ q.op = x.opsOut.head? ∧ q.session = x.session ∧ q.beat = BitVec.ofNat 32 (b.beat.toNat + 1) ∧
            q.payload = (t.grp g).outgoing ∧ q.payload.length = 8 * x.wiresOut.toNat) ∧
          (b.beat.toNat + 1 < x.k.toNat → (t.grp g).presented = []) ∧
          (∀ e rest, x.incoming = e :: rest → x.k.toNat ≤ b.beat.toNat + 1 → e.1.toNat + x.k.toNat = b.beat.toNat + 2 →
            (t.grp g).presented = e.2))) ∧
    (∀ ns late, s.gatePasses = false → exec (.beatEdge ns late) s = .next s) ∧
    (x.state = .up →
      (frameGood bytes = true → f.session = x.session → f.ackValid = false →
        (f.kind = 0 → f.seq = x.recvSeq → f.beat = (x.rxBeat + 1).truncate 32 → f.op = none → b.pipelined = true →
          s.cap.draining = false → ∃ t, exec (.beatFrameReceived g words crc) s = .next t ∧ KeptBut [.bond] s t ∧ elsewhere t ∧
            t.grp g = { x with recvSeq := x.recvSeq + 1, rxBeat := x.rxBeat + 1, incoming := x.incoming ++ [(x.rxBeat + 1, f.payload)] }) ∧
        (f.kind ≠ 3 → 0 < (f.seq - x.recvSeq).toNat → (f.seq - x.recvSeq).toNat < 2048 →
          ∃ t, exec (.beatFrameReceived g words crc) s = .next t ∧ KeptBut [.bond] s t ∧ elsewhere t ∧
            (t.grp g).ctrlOut = x.ctrlOut ++ [.nak x.recvSeq] ∧ spoken (t.grp g) = x) ∧
        (f.kind ≠ 3 → 2048 ≤ (f.seq - x.recvSeq).toNat → exec (.beatFrameReceived g words crc) s = .next s)) ∧
      (frameGood bytes = true → f.session = x.session → f.ackValid = true → x.txq = [] → x.queued = [] →
        f.kind = 3 ∨ 2048 ≤ (f.seq - x.recvSeq).toNat →
        ∃ t, exec (.beatFrameReceived g words crc) s = .next t ∧ KeptBut [.bond] s t ∧ elsewhere t ∧
          (t.grp g).replayBuf = x.replayBuf.filter (fun p => decide (2048 ≤ (f.ack - p.seq).toNat)) ∧
          { t.grp g with replayBuf := x.replayBuf, replayed := x.replayed } = x) ∧
      (frameGood bytes = false → f.kind ≠ 3 → ∃ t, exec (.beatFrameReceived g words crc) s = .next t ∧ KeptBut [.bond] s t ∧ elsewhere t ∧
        (t.grp g).ctrlOut = x.ctrlOut ++ [.nak x.recvSeq] ∧ (t.grp g).crc = satAdd x.crc 1 ∧
        spoken { t.grp g with crc := x.crc } = x) ∧
      (x.replayBuf = [q] → x.replayed = [] → x.holding = false → x.txq = [] → x.queued = [] →
        (∀ i ∈ ([.nakReceived g q.seq false, .replayTimerExpiry g] : List Instr), ∃ t, exec i s = .next t ∧ KeptBut [.bond, .evr] s t ∧
          elsewhere t ∧ (t.grp g).replays = satAdd x.replays 1 ∧ (t.grp g).replayed = [(q.seq.toNat, 1)] ∧
          { t.grp g with replays := x.replays, replayed := [], scramblers := x.scramblers, sent := x.sent } = x)) ∧
      (b.seenOps.contains (opKey o) = false → s.cap.stopped.getLsbD b.beatLine.toNat = false → b.state = .running → isOperand o = false →
        b.acted = [] → ∃ t, exec (.domainOpReceived g o) s = .next t ∧ KeptBut [.bond] s t ∧ t.bond.ops = b.ops ++ [o] ∧
          t.bond.seenOps = opKey o :: b.seenOps ∧ t.grp g = x ∧
          ∀ h, h < 32 → h ≠ g.val → t.grp h =
            if (s.grp h).state = .up then { s.grp h with opsOut := (s.grp h).opsOut ++ [o] } else s.grp h) ∧
      (b.seenOps.contains (opKey o) = true → exec (.domainOpReceived g o) s = .next s)) ∧
    (x.state ≠ .up → exec (.beatFrameReceived g words crc) s = .next s ∧ exec (.replayTimerExpiry g) s = .next s ∧
      exec (.domainOpReceived g o) s = .next s) ∧
    (s.isMember = false → exec (.bondTimeAlign { group := g, sent }) s = .next { s with time := s.time + 100000 }) ∧
    (s.isMember = true → s.isRoot = true → ∃ t, exec (.bondTimeAlign { group := g, sent }) s = .next t ∧ KeptBut [.bond, .time] s t ∧
      t.time = s.time + 100000 ∧ ∀ h, h < 32 → (s.grp h).state = .up →
        (t.grp h).ctrlOut = (s.grp h).ctrlOut ++ [.time (BitVec.ofNat 64 t.time)]) ∧
    (s.isMember = true → s.isRoot = false → x.state = .up → ∃ t, exec (.bondTimeAlign { group := g, sent }) s = .next t ∧
      KeptBut [.bond, .time] s t ∧ t.grp g = x ∧
      (-10 ≤ offset → offset ≤ 10 → (t.time : Int) = s.time + 100000 + offset ∧ t.bond.timeOffset = 0) ∧
      (10 < offset → t.time = s.time + 100010 ∧ t.bond.timeOffset = offset - 10) ∧
      (offset < -10 → t.time = s.time + 99990 ∧ t.bond.timeOffset = offset + 10) ∧
      ∀ h, h < 32 → h ≠ g.val → (s.grp h).state = .up →
        (t.grp h).ctrlOut = (s.grp h).ctrlOut ++ [.time (BitVec.ofNat 64 t.time)])

/-- R264, R287, R289, R290, R292, R297, T8.5: a group without acknowledgement goes DOWN with its lanes retraining and its
domain FROZEN; the end of the resume window makes the DOWN groups HELD; HOLD idles the lanes and RESUME retrains them;
LEAVE. The end of a training brings the groups UP that reported it, fails the others, computes H as the longest of the
shortest paths of the domain graph and D from it, and leaves the domain STOPPED at beat 0. -/
def Obligations.BondFaultsAndTraining : Prop :=
  ∀ (g : Fin 32) (s : State), s.power.holdDue = none → (∀ h, h < 32 → (s.grp h).opsOut = [] ∧ (s.grp h).txq = []) →
    let x := s.grp g
    let b := s.bond
    let steady := ∀ h, h < 32 → (s.grp h).state ≠ .retired ∧ (s.grp h).state ≠ .peerLeft ∧ (s.grp h).state ≠ .held
    let goesDown (i : Instr) (cause : BitVec 4) : Prop := x.aliveCount ≥ 6 → b.resumeMs ≠ 0 →
      (∀ l ∈ groupLanes g, (s.lane l).state = .retraining ∨ ((s.lane l).retrainTimes = [] ∧ (s.lane l).state = .up)) →
      ∃ t, exec i s = .next t ∧ KeptBut [.bond, .lanes, .evr] s t ∧ (t.grp g).state = .down ∧ (t.grp g).cause = cause ∧
        (t.grp g).downAt = s.time ∧ (t.grp g).replayBuf = x.replayBuf ∧ (t.grp g).usable = 0 ∧
        (∀ l ∈ groupLanes g, (t.lane l).state = .retraining) ∧ (∀ h, h < 32 → h ≠ g.val → t.grp h = s.grp h) ∧
        (s.isMember = true → steady → t.bond.state = .frozen ∧
          (b.state = .running → t.bond.freezeCause = cause ∧ t.bond.freezeGroup = BitVec.ofNat 5 g ∧ t.bond.freezeAt = s.time))
    (x.state = .up → x.holding = false → x.replayBuf ≠ [] → goesDown (.groupAckTimeout g) 9) ∧
    (x.state = .peerHold → x.resuming = true → x.usableCount < 6 → goesDown (.peerHoldTimeout g) 2) ∧
    (x.state = .peerHold → x.resuming = false → exec (.peerHoldTimeout g) s = .next s) ∧
    (x.state = .up → ∃ t, exec (.holdFrameReceived g) s = .next t ∧ KeptBut [.bond, .lanes] s t ∧ (t.grp g).state = .peerHold ∧
      (t.grp g).usable = 0 ∧ (t.grp g).resuming = false ∧ (t.grp g).replayBuf = x.replayBuf ∧
      (∀ l ∈ groupLanes g, (s.lane l).state = .up ∨ (s.lane l).state = .retraining → (t.lane l).state = .idle) ∧
      (∀ h, h < 32 → h ≠ g.val → t.grp h = s.grp h) ∧ (steady → b.state = .running → (∀ h, h < 32 → (s.grp h).state ≠ .down) →
        s.cap.stopped.getLsbD b.beatLine.toNat = false → t.bond.state = .running)) ∧
    (x.state = .peerHold → x.usableCount < 6 → s.power.mode ≠ .hold → ∃ t, exec (.resumeFrameReceived g) s = .next t ∧
      KeptBut [.bond, .lanes] s t ∧ t.grp g = { x with resuming := true } ∧
      (∀ l ∈ groupLanes g, (s.lane l).state = .idle → t.lane l = { s.lane l with state := .retraining }) ∧
      ∀ k, k ∉ groupLanes g → t.lane k = s.lane k) ∧
    (x.state = .peerHold → 6 ≤ x.usableCount → ∃ t, exec (.resumeFrameReceived g) s = .next t ∧ KeptBut [.bond, .lanes, .evr] s t ∧
      (t.grp g).state = .up ∧ (t.grp g).resuming = false ∧ (t.grp g).usable = x.usable) ∧
    (x.state = .down → (∀ h, h < 32 → (s.grp h).state = .down → s.resumeEnd g ≤ s.resumeEnd h) → (∀ c ∈ s.cap.runCmds, c.seq = none) →
      ∃ t, exec .resumeWindowEnd s = .next t ∧ KeptBut [.bond, .evr, .time, .intake, .cap] s t ∧
        t.time = max s.time (s.resumeEnd g) ∧ (t.grp g).state = .held ∧ (t.grp g).cause = 12) ∧
    ((∀ h, h < 32 → (s.grp h).state ≠ .down) → exec .resumeWindowEnd s = .next s) ∧
    (∀ other : Bool, x.state.trained = true → ∃ t, exec (.leaveReceived g other) s = .next t ∧ KeptBut [.bond, .evr] s t ∧
      t.grp g = { x with state := .peerLeft, cause := if other then 11 else 10, holding := false } ∧
      (∀ h, h < 32 → h ≠ g.val → t.grp h = s.grp h) ∧ (s.isMember = true → t.bond.state = .halted ∧
        (b.state = .running → t.bond.freezeCause = (if other then 11 else 10) ∧ t.bond.freezeAt = s.time))) ∧
    (∀ (r : GroupTrain) (others : List (BitVec 6 × List (BitVec 6))) (kMax : Byte) (allUp : Bool) (session : W32), b.state = .training → r.group = g → r.up = true →
      x.state = .training → s.laneDieOut (g / 4) = false → ∃ t, exec (.bndTrainDone [r] others kMax allUp session) s = .next t ∧
        KeptBut [.bond, .lanes, .cap, .evr, .intake, .fab, .freeNo] s t ∧
        (t.grp g).state = .up ∧ (∀ q, q < 8 → (t.grp g).usable.getLsbD q = (r.usable.getLsbD q &&
          (s.lane (8 * g + q)).state != .retired && (s.lane (8 * g + q)).state != .noRef)) ∧ (t.grp g).session = session ∧
        (t.grp g).tLink = r.tLink ∧ (t.grp g).sendSeq = 0 ∧ (t.grp g).recvSeq = 0 ∧ (t.grp g).rxBeat = 0 ∧ (t.grp g).replayBuf = [] ∧
        (∀ h, h < 32 → h ≠ g.val → (s.grp h).state = .training → (t.grp h).state = .trainFailed ∧ (t.grp h).cause = 7) ∧
        t.bond.beat = 0 ∧ t.cap.stopped = s.cap.dutLines ∧ { t.fab with edgeAt := s.fab.edgeAt } = s.fab ∧
        (let h := (diameter ((bitList b.members.toNat 64).map (BitVec.ofNat 6))
           ((t.ownPeers.map fun d => (b.device, d)) ++ others.flatMap fun m => m.2.map fun d => (m.1, d))).1
         t.bond.hops = BitVec.ofNat 6 h ∧ (b.pipelined = false → t.bond.dist = BitVec.ofNat 14 (h + 1))) ∧
        (steady → (∀ h, h < 32 → (s.grp h).state ≠ .down) → s.cap.dutLines.getLsbD b.beatLine.toNat = true → t.bond.state = .stopped)) ∧
    (b.state ≠ .training → ∀ rs others k up session, exec (.bndTrainDone rs others k up session) s = .next s) ∧
    (∀ (ms : List (BitVec 6)) (links : List (BitVec 6 × BitVec 6)), let d := diameter ms links
      (d.2 = true ↔ ∀ a ∈ ms, ∀ b ∈ ms, Within links 63 a b) ∧ (∀ a ∈ ms, ∀ b, Within links 63 a b → Within links d.1 a b) ∧
      ∀ n, n < d.1 → ∃ a ∈ ms, ∃ b, Within links 63 a b ∧ ¬ Within links n a b)

/-- R277, R279, R283 to R286: a tunnelled request for this part is answered NO_TARGET inside the bond space and else enters
grout under its lane die's master ID; one for another member goes on along its route, waits where the group has 64
unanswered, and without a route is dropped. A response goes to its requester, or on to the group its request came by, or is
late and counted; 1 ms without one is a TIMEOUT. Their frames wait while the replay buffer is full. A relayed packet's reply
is the relay's data, and the relay without one ends with TIMEOUT and remembers it; an inner ACCEPTED leaves the relay's
completion to the inner notification. -/
def Obligations.BondTunnelsAndRelays : Prop :=
  ∀ (g : Fin 32) (dest : BitVec 6) (r : GReq) (p : GResp) (s : State),
    let x := s.grp g
    let route := SMap.look 0 s.bond.routes dest.toNat
    let sends (i : Instr) (h : Nat) (kind : BitVec 8) (payload : List Byte) (also : State → Prop) : Prop :=
      (s.grp h).txq = [] → (s.grp h).state = .up → (s.grp h).holding = false → s.bond.state ≠ .running →
      let whole := padTo (roundUp 8 payload.length) payload
      ((s.grp h).bufferFull = false → ∃ t q, exec i s = .next t ∧ (t.grp h).replayBuf = (s.grp h).replayBuf ++ [q] ∧
        q.kind = kind ∧ q.seq = (s.grp h).sendSeq ∧ q.payload = whole ∧ q.op = none ∧ (t.grp h).sendSeq = (s.grp h).sendSeq + 1 ∧
        (t.grp h).txq = [] ∧ KeptBut [.bond] s t ∧ also t) ∧
      ((s.grp h).bufferFull = true → ∃ t, exec i s = .next t ∧ (t.grp h).replayBuf = (s.grp h).replayBuf ∧
        (t.grp h).sendSeq = (s.grp h).sendSeq ∧ (t.grp h).txq = [(kind, whole)] ∧ KeptBut [.bond] s t ∧ also t)
    let replied (i : Instr) (st : BitVec 16) (data : List Byte) (u : State) : Prop := ∀ h, s.intake.busy = some h → h.mute = false →
      let v := releaseEntry h.packet.cmd.port h.packet.cmd.source h.packet.cmd.tag { u with intake := { u.intake with busy := none } }
      exec i s = .next (replyTo h.packet h.auth st data (if st = Status.ok then beginLock h.packet v else v))
    (dest = s.bond.device →
      (0x400000000000 ≤ r.addr.toNat → r.addr.toNat < 0x500000000000 →
        sends (.tunnelRequestArrived g dest r) g 2 (txnPayload r 0 r.addr true 5 [] 0) fun t => ∀ h, h ≠ g.val → t.grp h = s.grp h) ∧
      (r.addr.toNat < 0x400000000000 → exec (.tunnelRequestArrived g dest r) s =
        .next (groutRequest { r with src := bondEp g r.addr.toNat, master := BitVec.ofNat 16 (0x20 + g / 4) } s))) ∧
    (dest ≠ s.bond.device →
      (route = 0 → exec (.tunnelRequestArrived g dest r) s = .next s) ∧
      (route ≠ 0 → (s.grp (route - 1)).state ≠ .up → exec (.tunnelRequestArrived g dest r) s = .next s) ∧
      (route ≠ 0 → (s.grp (route - 1)).tunnels.length + (s.grp (route - 1)).forwards.length < 64 →
        sends (.tunnelRequestArrived g dest r) (route - 1) 1 (txnPayload r dest r.addr false 0 r.data r.poison) fun t =>
          (t.grp (route - 1)).forwards = (s.grp (route - 1)).forwards ++ [(r, g.val)]) ∧
      (route ≠ 0 → (s.grp (route - 1)).state = .up → 64 ≤ (s.grp (route - 1)).tunnels.length + (s.grp (route - 1)).forwards.length →
        exec (.tunnelRequestArrived g dest r) s = .next (s.setGrp (route - 1) fun y =>
          { y with queued := y.queued ++ [({ req := r, device := dest, addr := r.addr }, some g.val)] }))) ∧
    (x.queued = [] →
      (x.tunnels.contains p.req = true → ∃ t, exec (.tunnelResponseArrived g p) s = .next t ∧ KeptBut [.bond, .grout] s t ∧
        t.grout = { s.grout with responses := s.grout.responses ++ [p] } ∧ t.grp g = { x with tunnels := x.tunnels.erase p.req }) ∧
      (∀ e, x.tunnels.contains p.req = false → x.forwards.find? (·.1 == p.req) = some e → e.2 ≠ g.val →
        sends (.tunnelResponseArrived g p) e.2 2 (txnPayload p.req 0 p.req.addr true p.status p.data p.poison) fun t =>
          (t.grp g).forwards = x.forwards.erase e) ∧
      (x.tunnels.contains p.req = false → x.forwards.find? (·.1 == p.req) = none → ∃ t, exec (.tunnelResponseArrived g p) s = .next t ∧
        t.grp g = { x with txnLate := x.txnLate + 1 } ∧ KeptBut [.bond, .evr] s t) ∧
      (x.tunnels.contains r = true → ∃ t, exec (.tunnelTimeout g r) s = .next t ∧ KeptBut [.bond, .grout] s t ∧
        t.grout = { s.grout with responses := s.grout.responses ++ [{ req := r, status := 3, data := [], poison := 0 }] } ∧
        t.grp g = { x with tunnels := x.tunnels.erase r }) ∧
      (∀ e, x.tunnels.contains r = false → x.forwards.find? (·.1 == r) = some e → e.2 ≠ g.val →
        sends (.tunnelTimeout g r) e.2 2 (txnPayload r 0 r.addr true 3 [] 0) fun t => (t.grp g).forwards = x.forwards.erase e)) ∧
    (∀ d op tag flags, s.relay = some (d, op, tag, flags) →
      replied .relayTimeout Status.timeout [] { s with bond := { s.bond with
        relayLate := (d, BitVec.ofNat 16 op, BitVec.ofNat 16 tag) :: s.bond.relayLate } } ∧
      ∀ reply : List Byte, fieldAt reply 10 2 = op → fieldAt reply 0 2 = tag →
        (fieldAt reply 2 2 ≠ 1 ∨ flags.testBit 4 = false → reply.length ≤ 65536 → replied (.relayReplyReceived reply false) Status.ok reply s) ∧
        (65536 < reply.length → replied (.relayReplyReceived reply false) Status.badLength [] s) ∧
        (fieldAt reply 2 2 = 1 → flags.testBit 4 = true → reply.length ≤ 65536 → ∀ h, s.intake.busy = some h →
          exec (.relayReplyReceived reply false) s = .next (finishHeld Status.accepted []
            (updEntry h.packet.cmd.port h.packet.cmd.source h.packet.cmd.tag
              (fun e => { e with work := .relay d (BitVec.ofNat 16 tag) }) s)))) ∧
    (s.relay = none → exec .relayTimeout s = .next s) ∧
    (∀ (reply : List Byte) (e : Completion) (rest : List Completion) (d : Byte), s.intake.table = e :: rest → e.done = false →
      e.work = .relay d (BitVec.ofNat 16 (fieldAt reply 0 2)) → exec (.relayReplyReceived reply true) s =
        .next (finishEntry e.port e.source e.tag (BitVec.ofNat 16 (fieldAt reply 2 2)) (slice reply 16 (min 256 (fieldAt reply 4 4))) s)) ∧
    (∀ (reply : List Byte) (d : Byte) rest, s.relay = none →
      s.bond.relayLate = (d, BitVec.ofNat 16 (fieldAt reply 10 2), BitVec.ofNat 16 (fieldAt reply 0 2)) :: rest →
      ∃ t, exec (.relayReplyReceived reply false) s = .next t ∧ KeptBut [.bond, .evr] s t ∧ t.bond = { s.bond with relayLate := rest })

/-- R262, R263, R296 to R300: what the BND commands do once they are admitted. BND_DOMAIN_SET configures the domain, its
groups and their lanes from its parameters, or leaves it with LEAVE on every UP group; BND_TRAIN starts the training of the
named groups. -/
def Obligations.BondCommands : Prop :=
  ∀ (c : Cmd) (s : State),
    let ps := c.params
    Completes (.bndDomainSet c) cardBndDomainSet c s (fun u a t => a = .reply Status.ok (leBytes 4 t.bndDomain) ∧ KeptBut [.bond, .lanes] u t ∧
      (fieldAt ps 0 1 = 0 → t.bond.state = .configured ∧ t.bond.pipelined = (fieldAt ps 3 1 == 1) ∧
        t.bond.domainId = BitVec.ofNat 32 (fieldAt ps 4 4) ∧ t.bond.members = BitVec.ofNat 64 (fieldAt ps 8 8) ∧ t.bond.beat = 0 ∧
        t.bond.period = BitVec.ofNat 20 (fieldAt ps 16 4) ∧ t.bond.beatLine = BitVec.ofNat 6 (fieldAt ps 20 1) ∧
        (fieldAt ps 1 1 = 0 → t.bond.device = BitVec.ofNat 6 (fieldAt ps 2 1)) ∧
        (∀ d, fieldAt ps 1 1 = 1 → u.svp.bndId = some d → t.bond.device = BitVec.ofNat 6 d) ∧ t.bond.opSeq = 0 ∧ t.bond.ops = [] ∧
        (∀ d, d < 64 → SMap.look 0 t.bond.routes d = if fieldAt ps (296 + d) 1 = 255 then 0 else fieldAt ps (296 + d) 1 + 1) ∧
        ∀ g, g < 32 →
          let p (i : Nat) : Nat := fieldAt ps (40 + 8 * g + i) 1
          (p 0 = 1 → (t.grp g).state = .configured ∧ (t.grp g).use = true ∧ (t.grp g).k = BitVec.ofNat 8 (p 4) ∧
            (t.grp g).wiresOut = BitVec.ofNat 7 (p 5) ∧ (t.grp g).wiresIn = BitVec.ofNat 7 (p 6) ∧
            (∀ l ∈ groupLanes g, (u.lane l).state ≠ .retired → (t.lane l).use = 1 ∧ (t.lane l).state = .off)) ∧
          (p 0 = 0 → (t.grp g).use = false ∧ (t.grp g).state = .unused ∧
            (∀ l ∈ groupLanes g, (u.lane l).use = 1 → (u.lane l).state ≠ .retired → (t.lane l).use = 0 ∧ (t.lane l).state = .off))) ∧
      (fieldAt ps 0 1 = 1 → t.bond.state = .unconfigured ∧ t.bond.ops = [] ∧ ∀ g, g < 32 → (t.grp g).use = false ∧
        (t.grp g).ctrlOut = (u.grp g).ctrlOut ++ (if (u.grp g).state = .up then [.leave] else []))) ∧
    Completes (.bndTrain c) cardBndTrain c s (fun u a t => a = .accepted ∧ (fieldAt ps 4 1 = 0 → t.bond.state = .training ∧
      KeptBut [.bond, .lanes] u t ∧
      ∀ g, g < 32 →
        ((fieldAt ps 0 4).testBit g = true → (u.grp g).use = true → (t.grp g).state = .training ∧ (t.grp g).usable = 0 ∧
          ∀ l ∈ groupLanes g, (u.lane l).state ≠ .retired →
            ((u.laneRef l (u.lane l).refSel).2 ≠ 2 → (t.lane l).state = .bringup ∧ (t.lane l).step = 1) ∧
            ((u.laneRef l (u.lane l).refSel).2 = 2 → (t.lane l).state = .noRef)) ∧
        ((fieldAt ps 0 4).testBit g = false ∨ (u.grp g).use = false → t.grp g = u.grp g ∧ ∀ l ∈ groupLanes g, t.lane l = u.lane l))) ∧
    Completes (.bndWindowSet c) cardBndWindowSet c s (fun u a t =>
      let w := fieldAt ps 0 1
      t.win w = { en := fieldAt ps 1 1 == 1, device := BitVec.ofNat 6 (fieldAt ps 2 1), base := BitVec.ofNat 64 (fieldAt ps 8 8) } ∧
      (∀ k, k ≠ w → t.win k = u.win k) ∧ { t.bond with windows := u.bond.windows } = u.bond ∧ (∃ d, a = .reply Status.ok d) ∧
      KeptBut [.bond] u t) ∧
    Completes (.bndResumeSet c) cardBndResumeSet c s (fun u a t => a = .reply Status.ok (leBytes 4 (BitVec.ofNat 16 (fieldAt ps 0 4)).toNat) ∧
      ((∀ g, g < 32 → (u.grp g).state ≠ .down) → t = { u with bond := { u.bond with resumeMs := BitVec.ofNat 16 (fieldAt ps 0 4) } })) ∧
    Completes (.bndRelay c) cardBndRelay c s (fun u a t =>
      let r := SMap.look 0 u.bond.routes (fieldAt ps 0 1)
      (r = 0 → a = .reply Status.isolated [] ∧ t = u) ∧
      (r ≠ 0 → (u.grp (r - 1)).state ≠ .up → a = .reply Status.isolated [] ∧ t = u) ∧
      (r ≠ 0 → (u.grp (r - 1)).state = .up → a = .held false ∧ KeptBut [.bond] u t ∧
        ((u.grp (r - 1)).txq = [] → (u.grp (r - 1)).holding = false → (u.grp (r - 1)).bufferFull = false → u.bond.state ≠ .running →
          ∃ q, q.payload = padTo (roundUp 8 (ps.drop 4).length) (ps.drop 4) ∧ q.kind = 1 ∧
            (t.grp (r - 1)).replayBuf = (u.grp (r - 1)).replayBuf ++ [q]))) ∧
    Reads (.bndStatus c) cardBndStatus c s (fun u => [(0, 20), (0x100, 256), (0x500, 64), (0x600, 64)].flatMap fun (q : Nat × Nat) =>
      (List.range q.2).flatMap fun i => leBytes 4 (u.readBnd (q.1 + 4 * i)))

/-! ### Lanes, references, PCIe and Ethernet (08, 09) -/

/-- R287, R305 to R307, R309, R311, R313, R315, T8.4: a lane that loses lock retrains, and at the third time within 10 s is
retired; the end of a retrain by its checks; the sets of the bring-up, read with their disparity and sent in turn, its rate
change, its training blocks and its limit of 100 ms; block lock; the checker's bits, its lock and its counts; the reference
checks. -/
def Obligations.LanesComeUpAndRetrain : Prop :=
  ∀ (l : Fin 256) (first : BitVec 10) (rest : List (BitVec 10)) (s : State), s.lanes.waits = [] → s.power.holdDue = none →
    let symbols := first :: rest
    let x := s.lane l
    let bond := l.val / 8
    let y := s.grp bond
    y.holding = false → s.bond.resumeMs ≠ 0 →
    let leaves (t : State) (ps : List Piece) : Prop := KeptBut ps s t ∧ ∀ k, k ≠ l.val → t.lane k = s.lane k
    (x.state ≠ .up ∨ x.loop ≠ 0 → exec (.laneLockLost l) s = .next (s.setLane l fun x => x.unlock)) ∧
    (x.state = .up → x.loop = 0 → x.recent s.time < 2 → x.use = 1 → y.state ≠ .peerHold →
      (y.state = .up → 6 ≤ popCount (setBit y.usable (l.val % 8) false).toNat 8 ∧ y.replayBuf = []) →
      ∃ t, exec (.laneLockLost l) s = .next t ∧ leaves t [.lanes, .bond, .evr] ∧
        t.lane l = { x.unlock with
          state := .retraining, retrains := satAdd x.retrains 1
          retrainTimes := s.time :: (x.retrainTimes.filter fun a => s.time < a + 10 * 100000000) } ∧
        (t.grp bond).usable = setBit y.usable (l.val % 8) false ∧ (t.grp bond).state = y.state ∧
        (t.grp bond).retrains = satAdd y.retrains 1) ∧
    (x.state = .up → x.loop = 0 → x.use = 1 → y.state = .peerHold → ∃ t, exec (.laneLockLost l) s = .next t ∧ leaves t [.lanes] ∧
      t.lane l = { x.unlock with state := .idle }) ∧
    (x.state = .up → x.loop = 0 → 2 ≤ x.recent s.time → 4 ≤ x.use.toNat → ∃ t, exec (.laneLockLost l) s = .next t ∧
      leaves t [.lanes, .evr] ∧ t.lane l = { x.off with state := .retired, retireCause := 0 }) ∧
    (x.state = .retraining →
      (let up (r : RetrainResult) : Prop := (x.use = 1 → y.replayBuf = [] ∧ (y.state = .up →
           6 ≤ popCount (setBit y.usable (l.val % 8) true).toNat 8)) → ∃ t, exec (.laneRetrainDone l r) s = .next t ∧
         leaves t [.lanes, .bond, .evr] ∧ t.lane l = { x with state := .up, locked := true, step := 5 } ∧
         (x.use = 1 → y.state.trained = true → (t.grp bond).usable = setBit y.usable (l.val % 8) true ∧
           (y.state = .down → 6 ≤ popCount (setBit y.usable (l.val % 8) true).toNat 8 → (t.grp bond).state = .up ∧ (t.grp bond).cause = 0))
       let out (r : RetrainResult) (cause : BitVec 2) : Prop := ∃ t, exec (.laneRetrainDone l r) s = .next t ∧
         KeptBut [.lanes, .bond, .evr] s t ∧ (t.lane l).state = .retired ∧ (t.lane l).retireCause = cause ∧
         (x.use = 1 → (t.grp bond).usable.getLsbD (l.val % 8) = false ∧ (t.grp bond).retired.getLsbD (l.val % 8) = true)
       up .passed ∧ (x.use = 1 ∨ (4 ≤ x.use.toNat ∧ x.bringup = true) →
         out .selfTestFailed 1 ∧ ∀ n, (n ≤ 10 → up (.prbsErrors n)) ∧ (10 < n → out (.prbsErrors n) 2)))) ∧
    (x.state ≠ .retraining → ∀ r, exec (.laneRetrainDone l r) s = .next s) ∧
    (x.state = .bringup → x.use ≠ 3 → x.step < 5 →
      (x.locked = false → symbols.head? ≠ encodeControl false 0xBC → symbols.head? ≠ encodeControl true 0xBC →
        exec (.bringupSetReceived l first rest) s = .next s) ∧
      (∀ rd, x.locked = true ∧ rd = x.rxRd ∨ (x.locked = false ∧ symbols.head? = encodeControl rd 0xBC) →
        let d := decodeSymbols rd symbols
        let chars := d.1.map (·.1)
        let good : Prop := d.2.1 = 0 ∧ d.1.length = 16 ∧ d.1.head? = some (0xBC, true) ∧ (∀ c ∈ d.1.drop 1, c.2 = false) ∧
          (Crypto.crc16 ((chars.drop 1).take 13)).toNat = fieldAt chars 14 2
        let sent (kind : Nat) : List (BitVec 10) := (encodeSet x.txRd (bringupChars kind l
          (if s.bond.state = .unconfigured then 0xFF else s.bond.device.toNat) x.rate.toNat x.preset.toNat
          (if x.use = 1 then s.bond.domainId.toNat else 0) (if x.use = 1 then y.session.toNat else 0))).1
        let read (z : Lane) : Lane := { z with locked := true, rxRd := d.2.2, codeErr := satAdd x.codeErr d.2.1 }
        let unsent (z : Lane) : Lane := { z with txSet := x.txSet, txRd := x.txRd, acksSent := x.acksSent }
        let acks := if fieldAt chars 1 1 = 2 then x.acks + 1 else x.acks
        let rate : BitVec 4 := BitVec.ofNat 4 (fieldAt chars 4 1)
        let preset : BitVec 4 := BitVec.ofNat 4 (fieldAt chars 5 1)
        (¬ good → ∃ t, exec (.bringupSetReceived l first rest) s = .next t ∧ leaves t [.lanes] ∧
          unsent (t.lane l) = read { x with good := 0 } ∧ (t.lane l).txSet = sent x.step) ∧
        (good → x.step = 1 → x.good + 1 < 16 → ∃ t, exec (.bringupSetReceived l first rest) s = .next t ∧ leaves t [.lanes] ∧
          unsent (t.lane l) = read { x with good := x.good + 1, peerRate := rate, peerPreset := preset } ∧ (t.lane l).txSet = sent 1) ∧
        (good → x.step = 1 → 16 ≤ x.good + 1 → x.acks = 0 → ∃ t, exec (.bringupSetReceived l first rest) s = .next t ∧ leaves t [.lanes] ∧
          unsent (t.lane l) = read { x with good := x.good + 1, peerRate := rate, peerPreset := preset, step := 2 } ∧
          (t.lane l).txSet = sent 2 ∧ (t.lane l).acksSent = x.acksSent + 1) ∧
        (good → x.step = 2 → acks < 8 ∨ x.acksSent + 1 < 8 → ∃ t, exec (.bringupSetReceived l first rest) s = .next t ∧
          leaves t [.lanes] ∧ unsent (t.lane l) = read { x with good := x.good + 1, peerRate := rate, peerPreset := preset, acks } ∧
          (t.lane l).txSet = sent 2 ∧ (t.lane l).acksSent = x.acksSent + 1) ∧
        (good → x.step = 2 → 8 ≤ acks → 8 ≤ x.acksSent + 1 → x.use = 1 → x.rate ≠ rate →
          ∃ t, exec (.bringupSetReceived l first rest) s = .next t ∧ leaves t [.lanes, .bond, .evr] ∧ (t.lane l).state = .failed ∧
            (t.lane l).failStep = 4 ∧ (y.state = .training → (t.grp bond).state = .trainFailed ∧ (t.grp bond).cause = 5)) ∧
        (good → x.step = 2 → 8 ≤ acks → 8 ≤ x.acksSent + 1 → x.use ≠ 1 ∨ x.rate = rate →
          ∃ t, exec (.bringupSetReceived l first rest) s = .next t ∧ leaves t [.lanes] ∧
            (t.lane l).rate = (if rate.toNat < x.rate.toNat then rate else x.rate) ∧ (t.lane l).step = 5 ∧
            (t.lane l).preset = preset ∧ ((t.lane l).txPre, (t.lane l).txPost) = Config.presetTaps preset ∧
            (t.lane l).state = (if x.use = 5 then .up else .bringup)))) ∧
    (x.state = .bringup → ∃ t, exec (.bringupTimeout l) s = .next t ∧ leaves t [.lanes, .bond, .evr] ∧
      t.lane l = { x.unlock with state := .failed, failStep := BitVec.ofNat 8 x.step }) ∧
    (x.state = .bringup → x.step = 5 → (x.use = 1 → y.state.trained = false) → ∃ t, exec (.trainingBlocksDone l) s = .next t ∧
      leaves t [.lanes] ∧ t.lane l = { x with state := .up, locked := true }) ∧
    (x.state ≠ .bringup → exec (.bringupTimeout l) s = .next s ∧ exec (.trainingBlocksDone l) s = .next s) ∧
    (∀ levels, x.loop ≠ 3 →
      let b := decodeBlock (pam4 x.rate.toNat) levels x.descrambler
      let bad := b.1 = 0 ∨ b.1 = 3
      (x.use = 1 ∨ x.use = 4 → ¬ bad → x.locked = false → ∃ t, exec (.blockLockChange l [levels]) s = .next t ∧ leaves t [.lanes] ∧
        t.lane l = { x with
          descrambler := b.2.2, rxBlocks := (x.rxBlocks ++ [(b.1 == 2, b.2.1)]).drop (x.rxBlocks.length - 7)
          hdrRun := x.hdrRun + 1, locked := decide (64 ≤ x.hdrRun + 1)
          hdrBad := if 64 ≤ x.hdrRun + 1 then [] else (false :: x.hdrBad).take 64 }) ∧
      (x.use = 4 → bad → x.locked = true → x.state = .up → x.loop = 0 → x.recent s.time < 2 →
        15 ≤ ((x.hdrBad.take 63).filter id).length → ∃ t, exec (.blockLockChange l [levels]) s = .next t ∧ leaves t [.lanes, .evr] ∧
          (t.lane l).state = .retraining ∧ (t.lane l).codeErr = satAdd x.codeErr 1 ∧ (t.lane l).locked = false ∧ (t.lane l).hdrRun = 0)) ∧
    (x.prbsChk = true → ∀ line : Bool, ∃ t, exec (.prbsCheckerLock l [line]) s = .next t ∧ leaves t [.lanes] ∧
      let z := t.lane l
      let bad : Bool := ((line != x.prbsInvert) != prbsNext x.prbsPattern.toNat x.prbsReg)
      (x.prbsLock = false → z.prbsBits = x.prbsBits ∧ z.prbsErr = x.prbsErr ∧
        z.prbsRun = (if (prbsTaps x.prbsPattern.toNat).headD 31 ≤ x.prbsFill ∧ bad = false then x.prbsRun + 1 else 0) ∧
        (z.prbsLock = true ↔ 256 ≤ z.prbsRun)) ∧
      (x.prbsLock = true → z.prbsBits = satAdd x.prbsBits 1 ∧ z.prbsErr = (if bad = true then satAdd x.prbsErr 1 else x.prbsErr) ∧
        (z.prbsLock = false ↔ 512 ≤ (((bad :: x.prbsWin).take 1024).filter id).length))) ∧
    (x.prbsChk = false → ∀ bits, ∃ t, exec (.prbsCheckerLock l bits) s = .next t ∧ KeptBut [.lanes] s t ∧ ∀ k, t.lane k = s.lane k) ∧
    (∀ (die : Fin 8) (a b : RefReading), (s.refs die).freqA ≠ 0 → (s.refs die).freqB = 0 →
      let r := s.refs die
      let bad := a.noEdge || decide (1000 < a.ppm.natAbs)
      ∃ t, exec (.refCheck die a b) s = .next t ∧ KeptBut [.lanes, .evr] s t ∧
        t.refs die = { r with stateA := if bad then 2 else if r.stateA = 2 ∧ a.goodFor < 10 then 2 else 1, stateB := 0 } ∧
        ∀ i, i < 32 →
          let k := 32 * die.val + i
          ((s.lane k).refSel = false → (s.lane k).use ≠ 0 →
            (bad = true → r.stateA ≠ 2 →
              (s.lane k).state = .up ∨ (s.lane k).state = .bringup ∨ (s.lane k).state = .retraining ∨ (s.lane k).state = .failed →
              (t.lane k).state = .noRef ∧ (t.lane k).locked = false) ∧
            (bad = false → r.stateA = 2 → 10 ≤ a.goodFor → (s.lane k).state = .noRef →
              t.lane k = if s.laneRests k then { s.lane k with state := .idle } else (s.lane k).start false)))

/-- R316, R318 to R323, R325: a PCIe link that comes up puts its lanes in service; one that goes down discards its mailbox
and answers what waits in its host window ISOLATED; a host's request through BAR 4 enters grout at the controller's
endpoint; a request to the host window ends ISOLATED, posted, or with the host's completion, or waits for it up to its
limit; an Ethernet port goes up and down; an eye scan ends. -/
def Obligations.LinksToHostAndNetwork : Prop :=
  ∀ (ctl : Fin 2) (r : GReq) (l : Fin 256) (s : State),
    let x := s.pcie ctl
    let lost : List GResp := x.outstanding.map fun q => { req := q, status := 2, data := [], poison := 0 }
    let down (i : Instr) (cause : Nat) : Prop := ∃ t, exec i s = .next t ∧ KeptBut [.lanes, .grout, .intake, .evr] s t ∧
      t.grout = { s.grout with responses := s.grout.responses ++ lost } ∧
      t.pcie ctl = { x with outstanding := [], hostReplies := [], bme := false, d3hot := false
                            ltssm := if cause = 2 then x.ltssm else if cause = 5 then 0 else if cause = 4 then 8 else
                              if cause = 1 then 7 else 1
                            width := if cause = 2 then x.width else 0, rate := if cause = 2 then x.rate else 0
                            flit := cause = 2 && x.flit } ∧
      t.space (Fin.ofNat 8 ctl) 0 = {} ∧ (t.cport ctl).requests = [] ∧ t.intake.table = s.intake.table ∧
      (∀ h, s.intake.busy = some h → h.packet.cmd.port = Fin.ofNat 8 ctl → t.intake.busy = some { h with mute := true })
    (x.enable = true → down (.perstAsserted ctl) 0) ∧
    (x.enable = false → exec (.perstAsserted ctl) s = .next s) ∧
    (∀ cause, down (.pcieLinkDown ctl cause) cause.toNat) ∧
    (∀ w rate flit, x.enable = true → x.ltssm ≠ 8 → s.laneDieOut (4 * ctl.val) = false → (s.refs (4 * ctl.val)).stateA ≠ 2 →
      ∃ t, exec (.pcieLinkUp ctl w rate flit) s = .next t ∧ KeptBut [.lanes, .evr, .freeNo] s t ∧
      t.pcie ctl = { x with ltssm := 3, width := w, rate, flit } ∧ ∀ i, i < 16 → (s.lane (128 * ctl.val + i)).use = 2 →
        (s.lane (128 * ctl.val + i)).state ≠ .retired → (t.lane (128 * ctl.val + i)).state = .up ∧ (t.lane (128 * ctl.val + i)).locked = true) ∧
    (∀ w rate flit, x.enable = false ∨ x.ltssm = 8 ∨ s.laneDieOut (4 * ctl.val) = true ∨ (s.refs (4 * ctl.val)).stateA = 2 →
      exec (.pcieLinkUp ctl w rate flit) s = .next s) ∧
    (∀ i : Fin 16, s.lanes.waits = [] →
      let k := 128 * ctl.val + i.val
      (s.lane k).use = 2 → (s.lane k).state = .up → (s.lane k).loop = 0 → (s.lane k).recent s.time < 2 →
      ∃ t, exec (.pcieRecoveryRetrain ctl i) s = .next t ∧ KeptBut [.lanes, .evr] s t ∧ (t.lane k).state = .up ∧
        (t.lane k).retrains = satAdd (s.lane k).retrains 1 ∧ (t.lane k).retrainTimes.head? = some s.time) ∧
    (∀ on, exec (.pcieConfigWrite ctl (.bme on)) s = .next (s.setPcie ctl fun x => { x with bme := on })) ∧
    (∀ on, exec (.pcieConfigWrite ctl (.d3hot on)) s = .next (s.setPcie ctl fun x => { x with d3hot := on })) ∧
    (∀ i start, i < 16 → exec (.pcieConfigWrite ctl (.margin i start)) s = .next (
      if (s.lane (128 * ctl.val + i)).scanBusy then s
      else s.setLane (128 * ctl.val + i) fun x => { x with margining := start })) ∧
    (∀ op (off : BitVec 36) len tag be data (poisoned : Bool),
      let a : Addr := BitVec.ofNat 48 (x.b4base.toNat + off.toNat)
      ∃ t, ∃ q : GReq, exec (.bar4Request ctl op off len tag be data poisoned) s = .next t ∧ exec (.groutRequest q) s = .next t ∧
        q.src = { x := 4 + a.toNat / 256 % 4, y := 15 * ctl.val, ep := 2 } ∧ q.master = BitVec.ofNat 16 (0x10 + ctl.val) ∧ q.op = op ∧
        q.addr = a ∧ q.len = len ∧ q.tag = tag ∧ q.byteEn = be ∧ q.data = data ∧ q.mgmt = false ∧ (poisoned = false → q.poison = 0)) ∧
    (let c := r.addr.toNat / 2 ^ 40 % 2
     let open_ := ((s.pcie c).ltssm = 3 ∨ (s.pcie c).ltssm = 4) ∧ (s.pcie c).bme = true ∧ (s.pcie c).d3hot = false
     let u := s.setPcie c fun x => { x with outstanding := x.outstanding.erase r }
     (¬ open_ → ∀ done, exec (.hostWindowRequest r done) s = .next (answer r 2 [] 0 u)) ∧
     (open_ →
       (r.op = .write → exec (.hostWindowRequest r none) s = .next (answer r 0 [] 0 u)) ∧
       (∀ data p, exec (.hostWindowRequest r (some (false, data, p))) s = .next (answer r 1 [] 0 u)) ∧
       (∀ data, r.op = .read → data.length = r.len.toNat + 1 →
         exec (.hostWindowRequest r (some (true, data, false))) s = .next (answer r 0 data 0 u)) ∧
       (r.op = .read → (s.pcie c).outstanding.contains r = false → ∃ t, exec (.hostWindowRequest r none) s = .next t ∧
         KeptBut [.lanes, .grout] s t ∧ t.grout = { s.grout with inflight := s.grout.inflight.erase r } ∧
         (t.pcie c).outstanding = (s.pcie c).outstanding ++ [r])) ∧
     ((s.pcie c).outstanding.contains r = true → exec (.hostWindowTimeout r) s = .next (answer r 3 [] 0 u)) ∧
     ((s.pcie c).outstanding.contains r = false → exec (.hostWindowTimeout r) s = .next s)) ∧
    (let p := s.lane l
     p.ethWidth ≠ 0 →
       (p.ethUp = false → s.lanes.waits = [] → s.laneDieOut (l.val / 32) = false → (∀ i, i < p.ethWidth →
         (s.lane (l.val + i)).state ≠ .retired ∧ s.laneRests (l.val + i) = false ∧
         (s.laneRef (l.val + i) (s.lane (l.val + i)).refSel).2 ≠ 2) → ∀ cause,
         ∃ t, exec (.ethPortStateChange l true cause) s = .next t ∧ KeptBut [.lanes, .evr, .freeNo] s t ∧ (t.lane l).ethUp = true ∧
           ∀ i, i < p.ethWidth → (t.lane (l.val + i)).state = .up ∧ (t.lane (l.val + i)).locked = true) ∧
       (p.ethUp = true → ∀ cause, ∃ t, exec (.ethPortStateChange l false cause) s = .next t ∧ KeptBut [.lanes, .evr] s t ∧
         t.lane l = { p with ethUp := false })) ∧
    (∀ (c : Scan) (o : ScanEnd) (st : BitVec 16) (n most : W32), s.lanes.scans = [c] → c.lane = l.val →
      (o = .complete most ∧ st = Status.ok ∧ n.toNat = c.points) ∨ (o = .lockLost n most ∧ st = Status.badState ∧ n.toNat ≤ c.points) →
      let u : State := { s.setLane l (fun x => { x with scanBusy := false }) with lanes.scans := [] }
      let counts := (List.range (4 * n.toNat)).map (Config.freeByte s.freeNo)
      let w := scanWrite c.addr.toNat counts u.stepFree
      w.1 = 0 → exec (.eyeScanDone l o) s = .next (finishEntry c.port c.source c.tag st
        (leBytes 4 (w.2.1 / 4) ++ leBytes 4 most.toNat ++ leBytes 8 0) w.2.2)) ∧
    (s.lanes.scans = [] → ∀ o, exec (.eyeScanDone l o) s = .next s)

/-! ### None -/

/-- R302 to R304, R312 to R316, R330 to R333, R602: what the LNS commands do once they are admitted. LNS_CONFIG sets up
lanes, references, a controller or a port; LNS_LOOP and LNS_PRBS change the lanes they name and no other; LNS_EYE_SCAN
starts a scan; LNS_STATUS reads. -/
def Obligations.LaneCommands : Prop :=
  ∀ (c : Cmd) (s : State),
    let ps := c.params
    let named (l : Nat) : Prop := fieldAt ps 0 2 ≤ l ∧ l < fieldAt ps 0 2 + fieldAt ps 2 2
    Completes (.lnsConfig c) cardLnsConfig c s (fun u a t =>
      let k := fieldAt ps 0 1
      let f := fieldAt ps 4 2
      let use := fieldAt ps 8 1
      let ls := (List.range (fieldAt ps 6 2)).map (f + ·)
      (k = 0 → KeptBut [.lanes, .evr] u t ∧
        (∀ l ∈ ls,
          let y := t.lane l
          (use ≠ 0xFF → y.use = BitVec.ofNat 4 use ∧ y.rate = BitVec.ofNat 4 (fieldAt ps 9 1) ∧ y.refSel = (fieldAt ps 10 1 == 1) ∧
            y.preset = BitVec.ofNat 4 (fieldAt ps 11 1) ∧ y.bringup = (fieldAt ps 15 1 == 1) ∧ y.loop = 0 ∧
            y.state = (if use = 0 then .off else if (u.laneRef l y.refSel).2 = 2 then .noRef
              else if 5 ≤ use ∧ y.bringup = false then .up else .bringup)) ∧
          (use = 0xFF → y.use = (u.lane l).use ∧ y.state = (u.lane l).state) ∧
          y.ctleLo = BitVec.ofNat 5 (fieldAt ps 12 1) ∧ y.ctleHi = BitVec.ofNat 5 (fieldAt ps 13 1) ∧
          y.ffe = bitAt (fieldAt ps 14 1) 0 ∧ y.dfe = bitAt (fieldAt ps 14 1) 1)) ∧
      (k = 0 ∨ k = 3 →
        (use ≠ 0xFF → (∃ l ∈ ls, (t.lane l).state = .bringup ∨ (t.lane l).state = .retraining) → a = .accepted ∧
          t.lanes.waits = u.lanes.waits ++ [(ls, c.port, c.source, c.tag)]) ∧
        (use = 0xFF ∨ (∀ l ∈ ls, (t.lane l).state ≠ .bringup ∧ (t.lane l).state ≠ .retraining) →
          a = .reply Status.ok (t.laneBytes ls) ∧ t.lanes.waits = u.lanes.waits)) ∧
      (k = 1 →
        let r := u.refs f
        let now (v : Nat) (old freq : BitVec 2) : BitVec 2 := if v = 0 then 0 else if v = freq.toNat then old else 1
        a = .reply Status.ok [] ∧ KeptBut [.lanes] u t ∧ t.lanes = { u.lanes with refs := t.lanes.refs } ∧
        t.refs f = { freqA := BitVec.ofNat 2 (fieldAt ps 9 1), freqB := BitVec.ofNat 2 (fieldAt ps 10 1)
                     stateA := now (fieldAt ps 9 1) r.stateA r.freqA, stateB := now (fieldAt ps 10 1) r.stateB r.freqB } ∧
        ∀ d, d ≠ f → t.refs d = u.refs d) ∧
      (k = 2 →
        let y := t.pcie f
        a = .reply Status.ok [] ∧ y.enable = (use == 1) ∧ y.maxRate = BitVec.ofNat 4 (fieldAt ps 9 1) ∧
        y.maxWidth = BitVec.ofNat 3 (fieldAt ps 10 1) ∧ y.b4base = BitVec.ofNat 64 (fieldAt ps 16 8) ∧
        y.hbase = BitVec.ofNat 64 (fieldAt ps 24 8) ∧ KeptBut [.lanes, .evr, .grout, .intake] u t ∧
        (use = 1 → (u.pcie f).enable = false → y.ltssm = 1) ∧ (use = 0 → (u.pcie f).enable = true → y.ltssm = 0 ∧ y.outstanding = []) ∧
        ((u.pcie f).enable ≠ (use == 1) → ∀ i, i < 16 → (u.lane (128 * f + i)).state ≠ .retired →
          (t.lane (128 * f + i)).use = (if use = 1 then 2 else 0) ∧ (t.lane (128 * f + i)).state = .off)) ∧
      (k = 3 → KeptBut [.lanes, .evr] u t ∧
        ∀ l ∈ ls, (t.lane l).use = (if use = 1 then 3 else 0) ∧ (t.lane l).rate = BitVec.ofNat 4 (fieldAt ps 9 1) ∧
          (use = 1 → (t.lane f).ethWidth = fieldAt ps 6 2 ∧ (t.lane l).state = (if (u.laneRef l (fieldAt ps 10 1 == 1)).2 = 2 then .noRef else .bringup)) ∧
          (use = 0 → (t.lane l).state = .off))) ∧
    Completes (.lnsLoop c) cardLnsLoop c s (fun u a t => a = .reply Status.ok (leBytes 4 (fieldAt ps 2 2)) ∧ KeptBut [.lanes] u t ∧
      t.lanes = { u.lanes with lanes := t.lanes.lanes } ∧ ∀ l,
        (named l → t.lane l = { u.lane l with
          loop := BitVec.ofNat 3 (fieldAt ps 4 1), locked := false, hdrRun := 0, hdrBad := [], retimed := [] }) ∧
        (¬ named l → t.lane l = u.lane l)) ∧
    Completes (.lnsPrbs c) cardLnsPrbs c s (fun u a t => a = .reply Status.ok (leBytes 4 (fieldAt ps 2 2)) ∧ KeptBut [.lanes] u t ∧
      t.lanes = { u.lanes with lanes := t.lanes.lanes } ∧ ∀ l, (¬ named l → t.lane l = u.lane l) ∧ (named l →
        let x := u.lane l
        let act := fieldAt ps 4 1
        let gen := act = 1 ∨ act = 3
        let chk := act = 2 ∨ act = 3
        t.lane l = { x with
          prbsGen := if act = 0 then false else if gen then true else x.prbsGen
          prbsChk := if act = 0 then false else if chk then true else x.prbsChk
          prbsLock := if act = 0 ∨ chk then false else x.prbsLock
          prbsFill := if chk then 0 else x.prbsFill
          prbsRun := if chk then 0 else x.prbsRun
          prbsWin := if chk then [] else x.prbsWin
          prbsErr := if chk ∨ act = 4 then 0 else x.prbsErr
          prbsBits := if chk ∨ act = 4 then 0 else x.prbsBits
          prbsPattern := if gen ∨ chk then BitVec.ofNat 3 (fieldAt ps 5 1) else x.prbsPattern
          prbsInvert := if gen ∨ chk then fieldAt ps 6 1 == 1 else x.prbsInvert })) ∧
    Completes (.lnsEyeScan c) cardLnsEyeScan c s (fun u a t => a = .accepted ∧ KeptBut [.lanes] u t ∧
      t.lane (fieldAt ps 0 2) = { u.lane (fieldAt ps 0 2) with scanBusy := true } ∧
      t.lanes = { u.lanes with
        lanes := t.lanes.lanes
        scans := u.lanes.scans ++ [{ port := c.port, source := c.source, tag := c.tag, lane := fieldAt ps 0 2
                                     points := fieldAt ps 5 1 * fieldAt ps 8 1, addr := BitVec.ofNat 64 (fieldAt ps 16 8) }] } ∧
      ∀ l, l ≠ fieldAt ps 0 2 → t.lane l = u.lane l) ∧
    Reads (.lnsStatus c) cardLnsStatus c s (fun u =>
      ((List.range 8).map (fun m => (u.refs m).word) ++ ((List.range 2).flatMap fun i => (List.range 6).map (u.pcieWord i)) ++
       ((List.range (fieldAt ps 2 2)).flatMap fun i => (List.range 12).map (u.laneWord (fieldAt ps 0 2 + i)))).flatMap (leBytes 4))

/-! ### Grout (10) -/

/-- R283, R339 to R345, R350, R355, R356, R481, R482, R601: a request of a dead or fenced source, to no target, past a held
router or to a fenced or dead endpoint is answered at once; another one meets its target's access table, whose valid entries
grant it or leave it DENIED, and is delivered; one through a bond window leaves in a frame of its group. A response goes to
its requester, and is absorbed where that is dead. A round puts the flows in force; a dead target's requests are answered.
-/
def Obligations.GroutTraffic : Prop :=
  ∀ (r : GReq) (p : GResp) (e : Endpoint) (s : State),
    let q := fillHeader r
    let answers (u : State) (st : BitVec 4) : State := { u with grout := { u.grout with
      responses := u.grout.responses ++ [{ req := q, status := st, data := [], poison := 0 }] } }
    let isolated : State := { s with grout := { s.grout with isoAnswers := satAdd s.grout.isoAnswers 1 } }
    let w := s.win (r.addr.toNat / 2 ^ 40 % 16)
    let there := w.base.toNat + r.addr.toNat % 2 ^ 40
    let g := SMap.look 0 s.bond.routes w.device.toNat - 1
    (q = { r with master := masterOf r.src r.master, mgmt := decide (r.src = stewardEp ∨ r.src = configEp) }) ∧
    (s.up = false ∨ s.endpointExists r.src = false ∨ s.injectFrozen r = true → exec (.groutRequest r) s = .next s) ∧
    (s.up = true → s.endpointExists r.src = true → s.injectFrozen r = false →
      (s.isDead r.src = true ∨ s.unitOut r.src = true → exec (.groutRequest r) s = .next (answers s 2)) ∧
      (s.isDead r.src = false → s.unitOut r.src = false →
        (∀ st, s.decode r.addr.toNat = .inl st → exec (.groutRequest r) s = .next (answers (if st = 2 then isolated else s) st)) ∧
        (0x400000000000 ≤ r.addr.toNat → r.addr.toNat < 0x500000000000 →
          (w.en = false ∨ 2 ^ 48 ≤ there → exec (.groutRequest r) s = .next (answers s 5)) ∧
          (w.en = true → there < 2 ^ 48 → w.device = s.bond.device ∨ s.bond.members.getLsbD w.device.toNat = false ∨
            SMap.look 0 s.bond.routes w.device.toNat = 0 ∨ (s.grp g).state ≠ .up →
            exec (.groutRequest r) s = .next (answers isolated 2))) ∧
        (∀ d, s.decode r.addr.toNat = .inr d →
          (s.routeBlocked r.src d.ep = false → s.unitOut d.ep = true → exec (.groutRequest r) s = .next (answers isolated 2)) ∧
          (s.routeBlocked r.src d.ep = true → ∃ t, exec (.groutRequest r) s = .next t ∧ KeptBut [.grout, .evr] s t ∧
            t.grout = (answers isolated 2).grout) ∧
          (s.routeBlocked r.src d.ep = false → s.unitOut d.ep = false → s.grout.flows = [] → s.grout.probes = [] →
            (s.isDead d.ep = true → exec (.groutRequest r) s = .next (answers isolated 2)) ∧
            (s.isDead d.ep = false →
              (∀ k, d.target = none → portOfEp d.ep = some k →
                (s.portHeld k = true → exec (.groutRequest r) s = .next (answers s 2)) ∧
                (s.portHeld k = false →
                  ((s.port k).tq.length < 16 → exec (.groutRequest r) s = .next (s.setPort k fun x => { x with tq := x.tq ++ [q] })) ∧
                  (16 ≤ (s.port k).tq.length → s.portRuns k = true →
                    exec (.groutRequest r) s = .next (s.setPort k fun x => { x with door := x.door ++ [q] })) ∧
                  (16 ≤ (s.port k).tq.length → s.portRuns k = false → ∃ t, exec (.groutRequest r) s = .next t ∧
                    KeptBut [.grout, .fab, .evr] s t ∧ t.grout = (answers s 3).grout ∧
                    t.port k = { s.port k with dropped := true }))) ∧
              (∀ k, d.target = some k → (k ≤ 8 → s.inCarve r.addr.toNat = false) →
                (s.secAxis = .quarantine → q.master.toNat ≤ 3) → SMap.look [] s.sec.caches (k * 4096 + epKey d.ep) = [] →
                let op := match r.op with | .read => 0 | .write => 1
                let granted := (q.master.toNat < 2 ∧ (k ≤ 10 ∨ 16 ≤ k)) ∨ ∃ x ∈ s.aclEntries k,
                  x.rights.getLsbD 7 = true ∧ x.masterLo.toNat ≤ q.master.toNat ∧ q.master.toNat ≤ x.masterHi.toNat ∧
                  x.base.toNat ≤ r.addr.toNat ∧ r.addr.toNat + r.len.toNat ≤ x.limit.toNat ∧ x.rights.getLsbD op = true
                (granted → k ≠ 15 → ∃ t, exec (.groutRequest r) s = .next t ∧ KeptBut [.grout, .sec] s t ∧
                  t.grout = { s.grout with inflight := s.grout.inflight ++ [q] } ∧ t.sec = { s.sec with caches := t.sec.caches }) ∧
                (granted → k = 15 → (s.grp g).holding = false → (s.grp g).bufferFull = false → (s.grp g).txq = [] →
                  s.bond.state ≠ .running → (s.grp g).tunnels.length + (s.grp g).forwards.length < 64 →
                  ∃ t f, exec (.groutRequest r) s = .next t ∧ KeptBut [.bond, .sec] s t ∧
                    (t.grp g).tunnels = (s.grp g).tunnels ++ [q] ∧ (t.grp g).replayBuf = (s.grp g).replayBuf ++ [f] ∧ f.kind = 1 ∧
                    (let bytes := txnPayload q w.device (BitVec.ofNat 48 there) false 0 q.data q.poison
                     f.payload = padTo (roundUp 8 bytes.length) bytes)) ∧
                (¬ granted → ∃ t, exec (.groutRequest r) s = .next t ∧ KeptBut [.grout, .sec, .evr] s t ∧
                  t.grout = (answers s 1).grout ∧ SMap.look 0 t.sec.denials k = satAdd (SMap.look 0 s.sec.denials k) 1 ∧
                  t.sec.lastDenyMaster = q.master))))))) ∧
    (s.grout.responses.contains p = true → s.grout.flows = [] → s.grout.probes = [] → s.discarded p.req = none →
      let u : State := { s with grout := { s.grout with responses := s.grout.responses.erase p } }
      (s.isDead p.req.src = true → exec (.groutResponse p) s = .next { u with grout := { u.grout with
        absorbed := satAdd s.grout.absorbed 1 } }) ∧
      (s.isDead p.req.src = false →
        (∀ k x, portOfEp p.req.src = some k → (s.port k).iq.find? (fun x => fillHeader x.2 == p.req) = some x →
          exec (.groutResponse p) s = .next (u.setPort k fun y => { y with iq := y.iq.erase x, ir := y.ir ++ [(x.1, p)] })) ∧
        (portOfEp p.req.src = none → laneDieOfEp p.req.src = none → p.req.master = 0x18 →
          exec (.groutResponse p) s = .next { u with gst := { s.gst with answers := s.gst.answers ++ [p] } }) ∧
        (portOfEp p.req.src = none → laneDieOfEp p.req.src = none → p.req.master = 2 → s.dbg.accBusy = true → p.req.tag = s.dbg.accTag →
          p.status = 0 → p.req.op = .read → exec (.groutResponse p) s = .next { u with dbg := { s.dbg with
            accBusy := false, accStatus := 0, accData := BitVec.ofNat 32 (fieldAt p.data 0 4), accPoisoned := p.poison != 0 } }))) ∧
    (s.grout.responses.contains p = false → s.toGuest p.req = true → s.gst.isolated = true →
      exec (.groutResponse p) s = .next { s with gst := { s.gst with absorbed := satAdd s.gst.absorbed 1 } }) ∧
    (s.grout.waiting = [] → exec .roundStart s = .next { s with grout := { s.grout with
      roundLocked := true, rounds := s.grout.rounds + 1
      flows := (s.grout.flows.filter fun f => !f.removing).map fun f => { f with active := true } } }) ∧
    (∀ n, (s.endpointExists e = false ∨ s.isDead e = true ∨ s.paused e = true ∨ (n = true ∧ (laneDieOfEp e).isSome = true)) →
      exec (.deadTarget e n) s = .next s) ∧
    (s.endpointExists e = true → s.isDead e = false → s.paused e = false →
      let (waiting, delivered, u) := takeRequests (· == e) s
      let late (n : Bool) (t : State) : Prop := KeptBut [.grout, .fab, .bond, .evr, .dev] s t ∧ t.fab = u.fab ∧ t.bond = u.bond ∧
        t.grout.dead = epKey e :: s.grout.dead ∧ t.grout.inflight = u.grout.inflight ∧
        t.grout.deadLast = BitVec.ofNat 32 (e.ep + e.y * 2 ^ 8 + e.x * 2 ^ 16 + b2n n * 2 ^ 30 + 2 ^ 31)
      let ends (st : BitVec 4) (rs : List GReq) : List GResp := rs.map fun r => { req := r, status := st, data := [], poison := 0 }
      (∃ t, exec (.deadTarget e false) s = .next t ∧ late false t ∧
        t.grout.responses = s.grout.responses ++ ends 2 (waiting ++ delivered)) ∧
      (laneDieOfEp e = none → ∃ t, exec (.deadTarget e true) s = .next t ∧ late true t ∧
        t.grout.responses = s.grout.responses ++ ends 3 delivered ++ ends 2 waiting))

/-- R359, R360, R366 to R370: FENCE_REQ, DRAINED and FENCED in their order; the drain limit forces the fence and answers
what is left with TIMEOUT; and what the GRT commands do once they are admitted. -/
def Obligations.FencesAndGroutCommands : Prop :=
  ∀ (u : Fin 17) (router : Fin 576) (c : Cmd) (s : State),
    let x := s.unit u
    let ps := c.params
    let fenced (t : State) (by_ : Bool) : Prop := (t.unit u).state = .fenced ∧ (t.unit u).forced = by_ ∧ (t.unit u).cmd = none ∧
      ∀ i ∈ unitDies u, (t.die i).state = .fenced
    (x.state = .draining → (unitRouters u).contains router.val = true →
      (x.reqRouters.contains router.val = false → exec (.fenceReq u router) s = .next (s.setUnit u fun x => { x with
        reqRouters := router.val :: x.reqRouters })) ∧
      (x.reqRouters.contains router.val = true → x.drainedRouters.contains router.val = false → s.unitQuiet u router = true →
        ∃ t, exec (.drained u router) s = .next t ∧ KeptBut [.grout] s t ∧
          t.unit u = { x with drainedRouters := router.val :: x.drainedRouters
                              state := if (unitRouters u).all (router.val :: x.drainedRouters).contains then .drained else .draining } ∧
          ∀ k, k ≠ u.val → t.unit k = s.unit k) ∧
      (x.reqRouters.contains router.val = false ∨ s.unitQuiet u router = false → exec (.drained u router) s = .next s)) ∧
    (x.state ≠ .draining → exec (.fenceReq u router) s = .next s ∧ exec (.drained u router) s = .next s) ∧
    (x.state = .drained →
      (x.cmd = none → ∃ t, exec (.fenced u) s = .next t ∧ KeptBut [.grout, .dev, .evr] s t ∧ fenced t false) ∧
      (∀ port src tag k, x.cmd = some (port, src, tag) → s.intake.busy = none → s.entry port src tag = some k →
        ∃ t, exec (.fenced u) s = .next t ∧ KeptBut [.grout, .dev, .evr, .intake] s t ∧ fenced t false ∧
          (t.entry port src tag).map (fun k => (k.done, k.status, k.data)) =
            some (true, Status.ok, leBytes 4 (t.unitWord u) ++ leBytes 4 x.timeouts.toNat))) ∧
    (x.state ≠ .drained → exec (.fenced u) s = .next s) ∧
    (x.state = .draining ∨ x.state = .drained → x.cmd = none →
      let (waiting, delivered, v) := takeRequests (inUnit u) s
      ∃ t, exec (.fenceDrainTimeout u) s = .next t ∧ KeptBut [.grout, .fab, .bond, .dev, .evr, .time] s t ∧ fenced t true ∧
        t.time = max s.time (x.startAt + x.drainMs * 100000) ∧ t.fab = v.fab ∧ t.bond = v.bond ∧ t.grout.inflight = v.grout.inflight ∧
        (t.unit u).timeouts = satAdd x.timeouts (waiting ++ delivered).length ∧
        t.grout.responses = s.grout.responses ++ (waiting ++ delivered).map fun r => { req := r, status := 3, data := [], poison := 0 }) ∧
    (x.state ≠ .draining → x.state ≠ .drained → exec (.fenceDrainTimeout u) s = .next s) ∧
    Completes (.grtFence c) cardGrtFence c s (fun v a t => a = .held true ∧ t = v.setUnit (fieldAt ps 0 1) fun x => { x with
      state := .draining, forced := false, timeouts := 0, startAt := v.time, drainMs := fieldAt ps 2 2
      reqRouters := [], drainedRouters := [], cmd := some (c.port, c.source, c.tag) }) ∧
    Completes (.grtUnfence c) cardGrtUnfence c s (fun v a t =>
      let n := fieldAt ps 1 1
      let ep : Endpoint := { x := fieldAt ps 2 1, y := fieldAt ps 3 1, ep := fieldAt ps 4 1 }
      (fieldAt ps 0 1 = 0 → a = .reply Status.ok (leBytes 4 (t.unitWord n)) ∧ KeptBut [.grout, .dev, .evr] v t ∧
        t.unit n = { v.unit n with state := .running } ∧ ∀ i ∈ unitDies n, (t.die i).state = .running) ∧
      (fieldAt ps 0 1 = 1 → a = .reply Status.ok (leBytes 4 t.grout.stateWord) ∧ KeptBut [.grout, .dev, .evr, .fab] v t ∧
        t.grout = { v.grout with dead := v.grout.dead.erase (epKey ep) } ∧
        ∀ k, portOfEp ep = some k → (t.port k).tq = [] ∧ (t.port k).door = [] ∧ (t.port k).delivered = [] ∧ (t.port k).ir = [] ∧
          (t.port k).iq = [])) ∧
    Completes (.grtSlotSet c) cardGrtSlotSet c s (fun v a t =>
      let f := flowParam c
      KeptBut [.grout, .evr] v t ∧ { t.grout with flows := v.grout.flows } = v.grout ∧
      (fieldAt ps 0 1 = 0 → t.grout.flows = v.grout.flows ++ [f] ∧ f.active = false ∧
        a = .reply Status.ok (leBytes 1 f.id ++ leBytes 1 ((max f.src.x f.dst.x - min f.src.x f.dst.x) +
          (max f.src.y f.dst.y - min f.src.y f.dst.y)) ++ [0, 0] ++ leBytes 4 f.slots.toNat)) ∧
      (fieldAt ps 0 1 = 1 → t.grout.flows = v.grout.flows.map (fun g => if g.id = f.id then { g with removing := true } else g) ∧
        ∃ d, a = .reply Status.ok d)) ∧
    Completes (.grtProbeSet c) cardGrtProbeSet c s (fun v a t =>
      let n := fieldAt ps 2 2
      let probe (u : State) : Probe := SMap.look {} u.grout.probes n
      KeptBut [.grout] v t ∧
      (fieldAt ps 0 1 = 0 → probe t = probeParam ps (probe v) ∧ a = .reply Status.ok (leBytes 4 (probe t).cfgWord) ∧
        ∀ k, k ≠ n → SMap.look {} t.grout.probes k = SMap.look {} v.grout.probes k) ∧
      (fieldAt ps 0 1 = 1 → a = .reply Status.ok (leBytes 4 0) ∧ t.grout = { v.grout with
        pstoreBase := BitVec.ofNat 64 (fieldAt ps 48 8), pstoreLen := BitVec.ofNat 64 (fieldAt ps 56 8), pstoreNext := 0 }) ∧
      (fieldAt ps 0 1 = 2 → a = .reply Status.ok (leBytes 4 (probe t).cfgWord) ∧ t.grout.pstoreLost = 0 ∧
        ∀ e ∈ t.grout.probes, e.2.pkts = 0 ∧ e.2.flits = 0 ∧ e.2.hits0 = 0 ∧ e.2.hits1 = 0)) ∧
    Reads (.grtStatus c) cardGrtStatus c s (fun v =>
      let words (a n : Nat) : List Byte := (List.range n).flatMap fun i => leBytes 4 (v.readGrt (a + 4 * i))
      if fieldAt ps 0 1 = 0 then words 0 7 ++ words 0x40 17 ++ [0, 0, 0, 0]
      else if fieldAt ps 0 1 = 1 then v.slotOwners (fieldAt ps 4 4)
      else (SMap.look {} v.grout.probes (fieldAt ps 4 4)).bytes)

/-! ### Engine and debug commands (11, 16) -/

/-- R400 to R403, R548, R550, R552, R553, R557, R558: what the ENG commands and the run control of engines do once they are
admitted. ENG_START puts the engines of its mask in RUNNING at its pc; ENG_STOP stops those that have nothing outstanding;
DBG_ENG_CONTROL halts, steps and resumes; DBG_FREEZE_SET sets its masks. -/
def Obligations.EngineCommands : Prop :=
  ∀ (c : Cmd) (s : State),
    let ps := c.params
    let mask := fieldAt ps 0 24
    let thawed (u : State) : Prop := u.dbg.freeze = 0 ∧ u.dbg.lanesFrozen = false
    Completes (.engLoad c) cardEngLoad c s (fun u a t => a = .accepted ∧ KeptBut [.intake] u t ∧
      (t.entry c.port c.source c.tag).map (·.work) = some (.engLoad ps)) ∧
    Completes (.engStart c) cardEngStart c s (fun u a t => a = .reply Status.ok (leBytes 24 mask ++ List.replicate 8 0) ∧
      KeptBut [.engines] u t ∧ ∀ e, e < 192 →
        let x := u.eng e
        let y := t.eng e
        (mask.testBit e = false → y = x) ∧ (mask.testBit e = true →
          y.state = .running ∧ y.pc = BitVec.ofNat 32 (fieldAt ps 24 4) ∧ y.clkDiv = BitVec.ofNat 5 (fieldAt ps 28 1) ∧ y.sr = 0 ∧
          y.ip = 0 ∧ y.excActive = false ∧ y.storeErr = false ∧ y.sb = [] ∧ y.gload = none ∧ y.lpact = 0 ∧ y.mem = x.mem ∧
          (fieldAt ps 29 1 = 1 → y.g = [] ∧ y.ac = [] ∧ y.p = [] ∧ y.m = [] ∧ y.b = [] ∧ y.l = []) ∧
          (fieldAt ps 29 1 = 0 → y.g = x.g ∧ y.ac = x.ac ∧ y.p = x.p ∧ y.m = x.m ∧ y.b = x.b ∧ y.l = x.l))) ∧
    Completes (.engStop c) cardEngStop c s (fun u a t =>
      ((∀ e, e < 192 → mask.testBit e = true → (t.eng e).state = .stopped) → a = .reply Status.ok t.stoppedData) ∧
      (∀ e, e < 192 → mask.testBit e = true → (t.eng e).state ≠ .stopped → a = .awaits (.engStop (BitVec.ofNat 192 mask))) ∧
      (u.power.mode ≠ .hold → u.intake.busy = none → thawed u → ∀ e, e < 192 →
        let x := u.eng e
        let y := t.eng e
        (mask.testBit e = false ∨ x.state = .stopped ∨ x.state = .wedged → y = x) ∧
        (mask.testBit e = true → x.state ≠ .stopped → x.state ≠ .wedged → x.gload = none → x.sb = [] → fieldAt ps 24 1 = 0 →
          y.state = .stopped ∧ y.pc = x.pc ∧ y.mem = x.mem ∧ y.g = x.g ∧ y.sr = x.sr))) ∧
    Reads (.engStatus c) cardEngStatus c s (fun u => (List.range (fieldAt ps 1 1)).flatMap fun i => (u.eng (fieldAt ps 0 1 + i)).record) ∧
    Completes (.dbgEngControl c) cardDbgEngControl c s (fun u a t =>
      let op := fieldAt ps 24 1
      (op < 2 → a = .held true) ∧
      (thawed u → op = 2 → a = .reply Status.ok t.haltedData ∧ KeptBut [.engines] u t) ∧
      (thawed u → u.intake.busy = none → ∀ e, e < 192 →
        let x := u.eng e
        let y := t.eng e
        (mask.testBit e = false → y = x) ∧ (mask.testBit e = true →
          y.pc = x.pc ∧ y.mem = x.mem ∧ y.g = x.g ∧ y.sr = x.sr ∧
          (op = 0 → x.state = .halted → y.state = .halted ∧ y.haltAsked = x.haltAsked ∧ y.steps = x.steps) ∧
          (op = 0 → x.state ≠ .halted → y.state = x.state ∧ y.haltAsked.isSome = true) ∧
          (op = 1 → y.state = .running ∧ y.steps = fieldAt ps 26 2 ∧ y.stepNoInt = (fieldAt ps 25 1 == 1)) ∧
          (op = 2 → y.steps = 0 ∧ y.state = if x.wasWaiting ∧ x.ie &&& x.ip = 0 then .waiting else .running)))) ∧
    Completes (.dbgFreezeSet c) cardDbgFreezeSet c s (fun u a t => a = .reply Status.ok (leBytes 4 (fieldAt ps 0 1)) ∧
      t.dbg.freeze = BitVec.ofNat 7 (fieldAt ps 0 1) ∧ t.dbg.xhalt = BitVec.ofNat 192 (fieldAt ps 4 24) ∧
      ((fieldAt ps 0 1).testBit 2 = false → u.dbg.lanesFrozen = false → KeptBut [.dbg, .evr] u t ∧
        t.dbg = { u.dbg with freeze := t.dbg.freeze, xhalt := t.dbg.xhalt }))

/-! ### DRAM and its encryption (13) -/

/-- R434 to R436, R439, R441, T13.6: a DRAM port answers ISOLATED where its channel or its region is out of service, queues
a request else, and answers a write in clear at once; a queue of 64 takes no more. An issued read in clear answers the
stored bytes and an issued write in clear stores the enabled bytes and no other. Refresh, MR4 and re-centring act on a
trained channel. -/
def Obligations.DramRequests : Prop :=
  ∀ (port : Fin 16) (r : GReq) (s : State),
    let p := port.val
    let a := r.addr.toNat
    let q := s.queue p
    let n := r.len.toNat + 1
    let clear := ∀ k, k < 8 → (s.region k).state = .off
    let byte (u : State) (x : Nat) : Byte := nth 0 (u.rawLine (x / 64)) (x % 64)
    ((s.chan (p / 2)).state ≠ .trained → exec (.dramPortRequest port r) s = .next (answer r 2 [] 0 s)) ∧
    (∀ k, s.regionAt a = some k → (s.region k).state ≠ .active → exec (.dramPortRequest port r) s = .next (answer r 2 [] 0 s)) ∧
    ((s.chan (p / 2)).state = .trained → (∀ k, s.regionAt a = some k → (s.region k).state = .active) →
      (64 ≤ (q.filter fun d => d.req.op == r.op).length → exec (.dramPortRequest port r) s = .next s) ∧
      ((q.filter fun d => d.req.op == r.op).length < 64 →
        (r.op = .write → s.regionAt a = none → exec (.dramPortRequest port r) s =
          .next (answer r 0 [] 0 (s.setQueue p (q ++ [{ req := r, answered := true, inOrder := false }])))) ∧
        (r.op = .write → s.regionAt a ≠ none → exec (.dramPortRequest port r) s =
          .next (s.setQueue p (q ++ [{ req := r, answered := false, inOrder := false }]))) ∧
        (r.op = .read → (∀ d ∈ q, d.req.op = .read) → exec (.dramPortRequest port r) s =
          .next (s.setQueue p (q ++ [{ req := r, answered := false, inOrder := false }]))))) ∧
    (∀ evict (d : DReq), q = [d] → d.req = r → clear → s.dram.cache = [] → s.dram.poisoned = [] →
      (r.op = .read → exec (.dramIssue port 0 [] evict) s = .next (answer r 0
        ((List.range n).map fun i => byte s (a + i)) 0 (s.setQueue p []))) ∧
      (r.op = .write → r.poison = 0 → d.answered = true → ∃ t, exec (.dramIssue port 0 [] evict) s = .next t ∧ KeptBut [.dram] s t ∧
        t.queue p = [] ∧ t.dram.poisoned = [] ∧ ∀ x, byte t x =
          if a ≤ x ∧ x < a + n ∧ r.byteEn.getLsbD (a % 256 + (x - a)) = true then nth 0 r.data (x - a) else byte s x) ∧
      (r.op = .read → a % 64 + n ≤ 64 → ∃ t bs, exec (.dramIssue port 0 [.uncorrectable] evict) s = .next (answer r 0 bs
          (unitPoison a (List.replicate n true)) t) ∧ bs.length = n ∧ KeptBut [.dram, .evr, .freeNo] s t ∧
        (t.chan (a / 256 % 8)).ue = satAdd (s.chan (a / 256 % 8)).ue 1)) ∧
    (q = [] → ∀ i ds evict, exec (.dramIssue port i ds evict) s = .next s) ∧
    (∀ (chan : Fin 8) (dimm : Fin 2) (code : BitVec 8) (up : Bool),
      let x := s.chan chan
      let serves := x.state = .trained ∧ dimm.val < (s.dimmsOf chan).count
      let half := decide (3 ≤ code.toNat % 8 ∧ code.toNat % 8 ≤ 5)
      (serves → exec (.dramRefresh chan dimm) s = .next (s.setChan chan fun x => { x with refreshes := x.refreshes + 1 })) ∧
      (serves → ∃ t, exec (.mr4Poll chan dimm code) s = .next t ∧ KeptBut [.dram, .evr] s t ∧ t.chan chan =
        (if dimm = 0 then { x with code0 := code, halved0 := half } else { x with code1 := code, halved1 := half }) ∧
        { t.dram with chans := s.dram.chans } = s.dram) ∧
      (¬ serves → exec (.dramRefresh chan dimm) s = .next s ∧ exec (.mr4Poll chan dimm code) s = .next s) ∧
      (x.state ≠ .trained → exec (.dramRecentre chan up) s = .next s) ∧
      (x.state = .trained →
        let l := s.loop 2
        let next := x.offset + (if up then 1 else -1)
        ∃ t, exec (.dramRecentre chan up) s = .next t ∧ KeptBut [.dram] s t ∧
          (l.effLo.toInt ≤ next → next ≤ l.effHi.toInt → (t.chan chan).offset = next ∧ (t.chan chan).recentre = satAdd x.recentre 1) ∧
          (next < l.effLo.toInt ∨ l.effHi.toInt < next → t.chan chan = { x with recentreHeld := true })))

/-- R429 to R433, R442 to R458: a channel that has trained serves with the rate and size found, its contents undefined, or
has failed; a region that is initialised becomes ACTIVE, and one whose initialisation met an error goes OFF; and what the
DRC and MEK commands do once they are admitted. -/
def Obligations.DramTrainingAndRegions : Prop :=
  ∀ (c : Cmd) (s : State),
    let ps := c.params
    (∀ (r : ChanTrain), (s.chan r.chan).state = .training → s.dram.trainCmd = none → s.power.resetCause ≠ .wake →
      let fits := (s.dimmsOf r.chan).speedUnder r.mts.toNat
      ∃ t, exec (.dramTraining [r]) s = .next t ∧ KeptBut [.dram, .evr] s t ∧
        (∀ v, r.cause = 0 → fits = some v → t.chan r.chan = { s.chan r.chan with
          state := .trained, cause := 0, mts := BitVec.ofNat 16 v, capGiB := r.capGiB, offset := 0 }) ∧
        (r.cause = 0 → fits = none → t.chan r.chan = { s.chan r.chan with state := .failed, cause := 2 }) ∧
        (r.cause ≠ 0 → t.chan r.chan = { s.chan r.chan with state := .failed, cause := r.cause }) ∧
        (∀ k, k ≠ r.chan.val → t.chan k = s.chan k) ∧ (∀ e ∈ t.dram.mem, e.1 / 256 % 8 ≠ r.chan.val) ∧
        SMap.look 0 t.dram.written r.chan = s.dram.epoch + 1) ∧
    (∀ (r : ChanTrain) port source tag cap e, (s.chan r.chan).state = .training → (∀ k, k < 8 → k ≠ r.chan.val → (s.chan k).state ≠ .training) →
      s.dram.trainCmd = some (port, source, tag, 1#8 <<< r.chan.val, cap) → s.entry port source tag = some e →
      let fits := (s.dimmsOf r.chan).speedUnder (if cap = 0 then r.mts.toNat else min cap r.mts.toNat)
      ∃ t, exec (.dramTraining [r]) s = .next t ∧ KeptBut [.dram, .evr, .intake] s t ∧ t.dram.trainCmd = none ∧
        (∀ v, r.cause = 0 → fits = some v → (t.chan r.chan).mts = BitVec.ofNat 16 v ∧ (t.chan r.chan).state = .trained) ∧
        (t.entry port source tag).map (fun e => (e.done, e.status)) =
          some (true, if r.cause = 0 ∧ fits.isSome then Status.ok else Status.badState)) ∧
    (∀ (k : Fin 8), (s.region k).state = .initialising → (s.region k).cmd = none →
      let m := s.region k
      (∃ t, exec (.regionInitDone k 0) s = .next t ∧ KeptBut [.dram, .evr] s t ∧ t.region k = { m with state := .active } ∧
        t.dram.fills.head? = some { base := m.baseGiB.toNat * 2 ^ 30, size := m.sizeGiB.toNat * 2 ^ 30, metaBase := m.metaBase.toNat
                                    metaLen := m.metaLen.toNat, key := m.key, stamp := s.dram.epoch } ∧
        (∀ e ∈ t.dram.mem, e.1 < m.baseGiB.toNat * 2 ^ 30 ∨ (m.baseGiB.toNat + m.sizeGiB.toNat) * 2 ^ 30 ≤ e.1) ∧
        ∀ i, i ≠ k.val → t.region i = s.region i) ∧
      (∀ st, st ≠ 0 → ∃ t, exec (.regionInitDone k st) s = .next t ∧ KeptBut [.dram] s t ∧ t.region k = { integ := m.integ } ∧
        t.dram.mem = s.dram.mem ∧ ∀ i, i ≠ k.val → t.region i = s.region i)) ∧
    (∀ (k : Fin 8) st, (s.region k).state ≠ .initialising → exec (.regionInitDone k st) s = .next s) ∧
    Completes (.drcTrain c) cardDrcTrain c s (fun u a t => a = .accepted ∧ (u.dram.queues = [] →
      (∃ n, n < 8 ∧ (fieldAt ps 0 1).testBit n = true ∧ (u.dimmsOf n).count ≠ 0) → KeptBut [.dram] u t ∧
        t.dram.trainCmd = some (c.port, c.source, c.tag, BitVec.ofNat 8 (fieldAt ps 0 1), fieldAt ps 2 2) ∧
        t.dram.mem = u.dram.mem ∧ ∀ n, n < 8 → t.chan n =
          if (fieldAt ps 0 1).testBit n = true ∧ (u.dimmsOf n).count ≠ 0 then { u.chan n with state := .training } else u.chan n)) ∧
    Completes (.mekRegionSet c) cardMekRegionSet c s (fun u a t => u.dram.queues = [] →
      let k := fieldAt ps 0 1
      let m := t.region k
      let random := fieldAt ps 2 1 == 1
      (∀ i, i ≠ k → t.region i = u.region i) ∧ t.dram.mem = u.dram.mem ∧
      (fieldAt ps 1 1 = 0 → a = .accepted ∧ KeptBut [.dram, .freeNo] u t ∧ m.state = .initialising ∧
        m.baseGiB = BitVec.ofNat 13 (fieldAt ps 8 8 / 2 ^ 30) ∧ m.sizeGiB = BitVec.ofNat 13 (fieldAt ps 16 8 / 2 ^ 30) ∧
        m.metaBase = BitVec.ofNat 48 (fieldAt ps 24 8) ∧ m.random = random ∧ m.roots = [] ∧ m.maxCtr = 0 ∧
        m.cmd = some (c.port, c.source, c.tag) ∧ (random = false → m.key = u.key (16 + k) ∧ t.freeNo = u.freeNo) ∧
        (random = true → m.key = (List.range 96).map (Config.freeByte u.freeNo))) ∧
      (fieldAt ps 1 1 = 1 → a = .reply Status.ok (leBytes 4 0) ∧ KeptBut [.dram, .evr] u t ∧ m = { integ := (u.region k).integ })) ∧
    Reads (.drcStatus c) cardDrcStatus c s (fun u => leBytes 8 u.dram.installed.toNat ++ leBytes 4 u.drcSummary ++ [0, 0, 0, 0] ++
      (List.range 80).flatMap fun i => leBytes 4 (u.drcWord (i / 10) (i % 10))) ∧
    Reads (.mekStatus c) cardMekStatus c s (fun u =>
      ([0, 4, 8, 12].flatMap fun o => leBytes 4 (u.readMek o)) ++ (List.range 80).flatMap fun i => leBytes 4 (u.mekWord (i / 10) (i % 10)))

/-! ### Security, access tables and the guest gate (14) -/

/-- R468, R473 to R478, R494 to R497, T14.7: what the SEC commands do once they are admitted. A key is stored, in Blank in
clear and else unwrapped under the trailer's key, and the first one opens the part; erasing the last command key leaves it
Blank; the part becomes Sealed; policies are set, tamper forced in Sealed; a debug session opens with its key_id, and ends.
-/
def Obligations.SecurityCommands : Prop :=
  ∀ (c : Cmd) (s : State),
    let ps := c.params
    let kind := fieldAt ps 0 1
    let index := fieldAt ps 1 1
    let slot := if kind = 3 then 16 + index else 4 * kind + index
    Completes (.secKeyProvision c) cardSecKeyProvision c s (fun u a t =>
      let material := slice ps 4 (fieldAt ps 2 2)
      let got := if u.sec.stored = .blank then some material else Crypto.kwUnwrap (u.key c.keySlot) material
      (got = none → a = .reply Status.authFail [] ∧ t = u) ∧
      (∀ key, got = some key → a = .reply Status.ok (leBytes 4 t.sec.slots) ∧ KeptBut [.sec, .intake, .evr] u t ∧
        t.key slot = key ∧ (∀ k, k ≠ slot → t.key k = u.key k) ∧
        (kind = 0 → SMap.look 0 t.intake.counters index = 0) ∧ (kind ≠ 0 → t.intake = u.intake) ∧
        (kind = 0 → u.sec.stored = .blank → t.sec.stored = .opened ∧ t.sec.policy = 4) ∧
        (kind ≠ 0 ∨ u.sec.stored ≠ .blank → t.sec = { u.sec with keys := t.sec.keys }))) ∧
    Completes (.secKeyErase c) cardSecKeyErase c s (fun u a t =>
      let last := kind = 0 ∧ u.key index ≠ [] ∧ ∀ k, k < 4 → k ≠ index → u.key k = []
      a = .reply Status.ok (leBytes 4 t.sec.slots) ∧ KeptBut [.sec, .evr] u t ∧
      (u.key slot = [] → t = u) ∧
      (u.key slot ≠ [] → (last → t.sec = { u.sec with keys := [], stored := .blank, policy := 0 }) ∧
        (¬ last → t.key slot = [] ∧ (∀ k, k ≠ slot → t.key k = u.key k) ∧ t.sec = { u.sec with keys := t.sec.keys }))) ∧
    Completes (.secModeSet c) cardSecModeSet c s (fun u a t => a = .reply Status.ok (leBytes 4 t.secMode) ∧
      t.sec.stored = .sealed ∧ t.sec.policy = 7 ∧
      (∀ n, u.sec.session = some n → n.isImplicit = true → t.sec.session = none) ∧
      ((∀ n, u.sec.session = some n → n.isImplicit = false) → KeptBut [.sec, .evr] u t ∧
        t.sec = { u.sec with stored := .sealed, policy := 7 })) ∧
    Completes (.secPolicySet c) cardSecPolicySet c s (fun u a t =>
      let p : BitVec 5 := BitVec.ofNat 5 (fieldAt ps 0 1)
      let p := if u.sec.stored = .sealed then p ||| 4 else p
      a = .reply Status.ok (leBytes 4 p.toNat) ∧ KeptBut [.sec, .evr] u t ∧ t.sec = { u.sec with policy := p }) ∧
    Completes (.secDebugUnlock c) cardSecDebugUnlock c s (fun u a t =>
      let kd := u.key 8
      let hn := slice ps 4 16
      let opens (pn : List Byte) : Prop :=
        let id : W64 := if kd = [] then 0 else BitVec.ofNat 64 (leNat (Crypto.keyId kd pn hn))
        let n : Session :=
          { isImplicit := false, port := c.port, source := c.source, keyId := id
            captureKey := if kd = [] then none else some (Crypto.captureKey kd pn hn) }
        t.sec = { u.sec with session := some n } ∧
        a = .reply Status.ok (pn ++ leBytes 8 id.toNat ++ List.replicate 8 0)
      KeptBut [.sec, .evr, .freeNo] u t ∧
      (fieldAt ps 0 1 = 1 → opens (slice ps 20 16) ∧ t.freeNo = u.freeNo) ∧
      (fieldAt ps 0 1 = 0 → ∃ n, u.freeNo ≤ n ∧ t.freeNo = n + 1 ∧ opens ((List.range 16).map (Config.freeByte n)))) ∧
    Completes (.secDebugLock c) cardSecDebugLock c s (fun u a t => a = .reply Status.ok [0, 0, 0, 0] ∧
      t.sec = { u.sec with session := none } ∧ t.fab = u.fab ∧ t.cfg = u.cfg ∧ t.power = u.power) ∧
    Reads (.secStatus c) cardSecStatus c s (fun u => [0x00, 0x04, 0x08, 0x0C, 0x10, 0x14, 0x18, 0x20].flatMap fun o => leBytes 4 (u.readSec o))

/-- R483 to R491, R498, R499: entries written take their places and open the stale window, which an invalidation or the
sweep of every millisecond closes; the reconcile sweep finds the units whose two views disagree; a guest request is answered
at its gate, waits for the limiter, or enters grout as master 0x18; and what the GST commands do once they are admitted. -/
def Obligations.AccessTablesAndGuest : Prop :=
  ∀ (c : Cmd) (r : GReq) (s : State),
    let ps := c.params
    let tgt := fieldAt ps 0 2
    let first := fieldAt ps 2 2
    let n := fieldAt ps 4 2
    let word (e : AclEntry) : List Byte := leBytes 2 e.masterLo.toNat ++ leBytes 2 e.masterHi.toNat ++ leBytes 4 e.rights.toNat ++
      leBytes 8 e.base.toNat ++ leBytes 8 e.limit.toNat
    Completes (.aclWrite c) cardAclWrite c s (fun u a t => a = .reply Status.ok (leBytes 4 (t.aclWord tgt)) ∧ KeptBut [.sec, .evr] u t ∧
      (∀ i, i < n → word (t.aclEntry tgt (first + i)) = slice ps (8 + 24 * i) 24) ∧
      (∀ k i, i < 256 → k ≠ tgt ∨ i < first ∨ first + n ≤ i → t.aclEntry k i = u.aclEntry k i) ∧
      SMap.look false t.sec.stale tgt = true ∧ t.sec = { u.sec with acl := t.sec.acl, stale := t.sec.stale }) ∧
    Reads (.aclRead c) cardAclRead c s (fun u => (List.range n).flatMap fun i => word (u.aclEntry tgt (first + i))) ∧
    Completes (.aclInvalidate c) cardAclInvalidate c s (fun u a t => a = .reply Status.ok (leBytes 4 u.sec.sweeps.toNat) ∧
      KeptBut [.sec] u t ∧ t.sec = { u.sec with caches := t.sec.caches, stale := t.sec.stale } ∧
      (tgt = 0xFFFF → t.sec.caches = [] ∧ t.sec.stale = []) ∧
      (tgt ≠ 0xFFFF → (∀ e ∈ t.sec.caches, e.1 / 4096 ≠ tgt) ∧ SMap.look false t.sec.stale tgt = false ∧
        ∀ k, k / 4096 ≠ tgt → SMap.look [] t.sec.caches k = SMap.look [] u.sec.caches k)) ∧
    (exec .aclSweep s = .next { s with time := (s.time + 99999) / 100000 * 100000, sec := { s.sec with
      caches := [], stale := [], sweeps := s.sec.sweeps + 1 } }) ∧
    (∃ t, exec .reconcileSweep s = .next t ∧ KeptBut [.sec, .evr] s t ∧
      t.sec.mismatched = sweptUnits.filter (fun k => (s.views k).1 ≠ (s.views k).2) ∧
      t.sec.disagreements = BitVec.ofNat 16 t.sec.mismatched.length ∧
      t.sec = { s.sec with mismatched := t.sec.mismatched, disagreements := t.sec.disagreements, lastUnit := t.sec.lastUnit }) ∧
    (s.guestOn = false → exec (.guestRequest r) s = .next s) ∧
    (s.guestOn = true →
      let g := s.gst
      let q : GReq := { r with src := if unitOf r.src = some 16 then r.src else { x := 0, y := 7, ep := 3 }, master := 0x18 }
      let op := match r.op with | .read => 0 | .write => 1
      let granted := ∃ i, i < 64 ∧ (s.gstEntry i).rights.getLsbD 7 = true ∧ (s.gstEntry i).rights.getLsbD op = true ∧
        (s.gstEntry i).base.toNat ≤ r.addr.toNat ∧ r.addr.toNat + r.len.toNat ≤ (s.gstEntry i).limit.toNat
      let answers (st : BitVec 4) : List GResp := g.answers ++ [{ req := q, status := st, data := [], poison := 0 }]
      let bucket := min (g.burst.toNat * 1024) (g.tokens + g.rate.toNat * (s.time - g.refillAt))
      (g.isolated = true → exec (.guestRequest r) s = .next { s with gst := { g with answers := answers 2 } }) ∧
      (g.isolated = false → ¬ granted → s.sec.policy.getLsbD 4 = false → ∃ t, exec (.guestRequest r) s = .next t ∧
        KeptBut [.gst, .sec, .evr] s t ∧ t.sec = { s.sec with seen := s.sec.seen ||| 16 } ∧
        t.gst = { g with answers := answers 1, violations := satAdd g.violations 1, lastViol := t.gst.lastViol }) ∧
      (g.isolated = false → granted → g.withheld = [] →
        (g.rate = 0 → ∃ t, exec (.guestRequest r) s = .next t ∧
          exec (.groutRequest q) { s with gst := { g with tokens := bucket, refillAt := s.time } } = .next t) ∧
        (g.rate ≠ 0 → r.len.toNat + 1 ≤ bucket → ∃ t, exec (.guestRequest r) s = .next t ∧
          exec (.groutRequest q) { s with gst := { g with
            tokens := bucket - (r.len.toNat + 1), refillAt := s.time } } = .next t) ∧
        (g.rate ≠ 0 → bucket < r.len.toNat + 1 → exec (.guestRequest r) s = .next { s with gst := { g with
          tokens := bucket, refillAt := s.time, withheld := [(q, s.time)] } }))) ∧
    (let g := s.gst
     let cap := g.burst.toNat * 1024
     let bucket := min cap (g.tokens + g.rate.toNat * (s.time - g.refillAt))
     let wait := (r.len.toNat + 1 - bucket + g.rate.toNat - 1) / g.rate.toNat
     (g.withheld = [] → exec .guestLimiterRefill s = .next { s with gst := { g with tokens := bucket, refillAt := s.time } }) ∧
     (∀ at_, g.withheld = [(r, at_)] → g.rate ≠ 0 → g.burst ≠ 0 → ∃ t u,
       exec .guestLimiterRefill s = .next t ∧ exec (.groutRequest r) u = .next t ∧
       KeptBut [.gst, .time] s u ∧ u.time = s.time + wait ∧ u.gst.withheld = [] ∧
       u.gst.tokens = min cap (bucket + g.rate.toNat * wait) - (r.len.toNat + 1) ∧
       u.gst.stallUs = satAdd g.stallUs ((s.time + wait - at_) / 100))) ∧
    Completes (.gstFirewallSet c) cardGstFirewallSet c s (fun u a t => a = .reply Status.ok (leBytes 4 t.gstState) ∧ KeptBut [.gst] u t ∧
      (fieldAt ps 0 1 = 0 → word (t.gstEntry (fieldAt ps 1 1)) = slice ps 4 24 ∧
        (∀ i, i ≠ fieldAt ps 1 1 → t.gstEntry i = u.gstEntry i) ∧ t.gst = { u.gst with table := t.gst.table }) ∧
      (fieldAt ps 0 1 = 1 → t.gst.rate = BitVec.ofNat 13 (fieldAt ps 4 2) ∧ t.gst.burst = BitVec.ofNat 16 (fieldAt ps 6 2) ∧
        t.gst.tokens ≤ fieldAt ps 6 2 * 1024 ∧ t.gst.table = u.gst.table)) ∧
    Completes (.gstIsolate c) cardGstIsolate c s (fun u a t => a = .reply Status.ok (leBytes 4 t.gstState) ∧
      KeptBut [.gst, .grout, .fab, .bond, .dev, .evr] u t ∧ t.gst.isolated = true ∧ t.gst.withheld = [] ∧ (t.die 25).state = .isolated ∧
      t.gst.answers = u.gst.answers ++ u.gst.withheld.map fun q => { req := q.1, status := 2, data := [], poison := 0 })

/-! ### The debug port (16) -/

/-- R536 to R547: a debug-domain reset resets the domain and nothing else; a command or identification instruction is
selected, a test instruction takes effect or loads as BYPASS and is logged; the status word is captured and its flags
cleared; request words gather to a packet and reply words leave; the access register starts one 32-bit access as master 2; a
two-wire frame is taken where its parity and check are right. -/
def Obligations.DebugPort : Prop :=
  ∀ (word : BitVec 33) (acc : BitVec 96) (command : Byte) (data : W32) (check : BitVec 16) (cells : List (Nat × Bool)) (s : State),
    let d := s.dbg
    let on := s.dbgPowered = true ∧ d.twoWire = false
    let resets (i : Instr) : Prop := ∃ t, exec i s = .next t ∧ KeptBut [.dbg, .evr, .intake] s t ∧
      (t.cport (if d.twoWire then 3 else 2)).partialBytes = [] ∧ t.dbg = { Dbg.reset with
        twoWire := s.part.dbgSel, resetSeen := true, accTag := d.accTag, accesses := d.accesses, freeze := d.freeze
        xhalt := d.xhalt, lanesFrozen := d.lanesFrozen }
    let load (code : Byte) (test : Bool) : State := { s with dbg := { d with instr := code, testActive := test } }
    let own := s.sec.session.map fun n => decide (n.port = 2 ∧ n.source = 0)
    (s.dbgPowered = true → (∀ cause, cause ≠ 3 → resets (.debugPortReset cause)) ∧ resets .trstAsserted ∧
      (d.twoWire = true → resets .twoWireReset) ∧ (d.twoWire = false → s.evr.returnState = false → resets .dbgReset)) ∧
    (∀ i ∈ ([.trstAsserted, .twoWireReset, .dbgReset, .debugPortReset 0] : List Instr), s.dbgPowered = false → exec i s = .next s) ∧
    (on → s.evr.returnState = false →
      exec .dbgStatus s = .next (load 0x10 false) ∧ exec .cmdData s = .next (load 0x11 false) ∧ exec .bypass s = .next (load 0xFF false) ∧
      exec .idcode s = .next { s with dbg := { d with
        instr := 0x02, testActive := false, captured := BitVec.ofNat 96 s.part.idWord } } ∧
      (∃ t, exec (.samplePreload cells) s = .next t ∧ KeptBut [.dbg] s t ∧ t.dbg = { d with
        instr := 0x01, testActive := false, boundary := t.dbg.boundary } ∧
        ∀ k, (∀ e ∈ cells, e.1 ≠ k) ∨ 5408 ≤ k → SMap.look false t.dbg.boundary k = SMap.look false d.boundary k) ∧
      (∀ k v, cells = [(k, v)] → k < 5408 → ∃ t, exec (.samplePreload cells) s = .next t ∧ SMap.look false t.dbg.boundary k = v) ∧
      (s.mayAccess 2 = true → exec .groutAcc s = .next (load 0x12 false)) ∧
      (s.mayAccess 2 = false → exec .groutAcc s = .next { s with dbg := { d with instr := 0xFF, testActive := false, refused := true } }) ∧
      (∀ e ∈ ([(.extest, 0x00), (.clamp, 0x03), (.highz, 0x04), (.extestPulse, 0x05), (.extestTrain, 0x06)] : List (Instr × Byte)),
        let idle := s.power.mode = .hold ∨ s.cfg.loaded = 0
        let mine := own ≠ some false ∧ (s.secAxis = .sealed → own = some true)
        (s.secAxis ≠ .quarantine → idle → mine → exec e.1 s = .next (load e.2 true)) ∧
        (s.secAxis = .quarantine ∨ ¬ idle ∨ ¬ mine → ∃ t, exec e.1 s = .next t ∧ KeptBut [.dbg, .evr] s t ∧
          t.dbg = { d with instr := 0xFF, testActive := false, refused := true }))) ∧
    (on → s.evr.returnState = true → (∀ i ∈ ([.cmdData, .bypass, .groutAcc, .extest, .clamp, .highz, .extestPulse, .extestTrain,
      .dbgReset, .samplePreload cells] : List Instr), exec i s = .next (load 0xFF false))) ∧
    (on → d.instr = 0x10 → exec .statusWordCapture s = .next { s with dbg := { d with
      captured := BitVec.ofNat 96 s.statusWord, refused := false, overrun := false, resetSeen := false } }) ∧
    (¬ on ∨ d.instr ≠ 0x10 → exec .statusWordCapture s = .next s) ∧
    (on → d.instr = 0x11 →
      let bytes := (s.cport 2).partialBytes ++ leBytes 4 (word.toNat % 2 ^ 32)
      (word.getLsbD 32 = false → exec (.cmdDataWord true word) s = .next s) ∧
      (word.getLsbD 32 = true → bytes.length < 16 ∨ bytes.length < packetSize bytes →
        exec (.cmdDataWord true word) s = .next (s.setCport 2 fun x => { x with partialBytes := bytes })) ∧
      (word.getLsbD 32 = true → 16 ≤ bytes.length → packetSize bytes ≤ bytes.length → s.intake.opened = true →
        (s.space 2 0).reqBusy = false → (s.space 2 0).retryUntil ≤ s.time → ∃ t, exec (.cmdDataWord true word) s = .next t ∧
          KeptBut [.intake] s t ∧ (t.cport 2).partialBytes = [] ∧ (t.space 2 0).reqBusy = true ∧
          (t.cport 2).requests = (s.cport 2).requests ++ [parsePacket 2 0 (bytes.take (packetSize bytes))]) ∧
      ((s.space 2 0).current = none → exec (.cmdDataWord false word) s = .next { s with dbg := { d with captured := 0 } }) ∧
      (∀ r, (s.space 2 0).current = some r →
        let w : BitVec 96 := BitVec.ofNat 96 (fieldAt r.bytes d.shifted 4 + 2 ^ 32)
        (d.shifted + 4 < r.bytes.length → exec (.cmdDataWord false word) s = .next { s with dbg := { d with
          captured := w, shifted := d.shifted + 4 } }) ∧
        (r.bytes.length ≤ d.shifted + 4 → (s.space 2 0).waiting = [] → ∃ t, exec (.cmdDataWord false word) s = .next t ∧
          KeptBut [.dbg, .intake] s t ∧ t.dbg = { d with captured := w, shifted := 0 } ∧ (t.space 2 0).current = none))) ∧
    (on → d.instr = 0x12 → s.up = true →
      let op : BitVec 2 := acc.extractLsb' 94 2
      (d.accBusy = true → op = 1 ∨ op = 2 → exec (.groutAccStart acc) s = .next { s with dbg := { d with
        captured := BitVec.ofNat 96 d.accWord, overrun := true } }) ∧
      (op = 0 ∨ op = 3 → exec (.groutAccStart acc) s = .next { s with dbg := { d with captured := BitVec.ofNat 96 d.accWord } }) ∧
      (d.accBusy = false → op = 1 ∨ op = 2 → s.mayAccess 2 = true → ∃ t u q, exec (.groutAccStart acc) s = .next t ∧
        exec (.groutRequest q) u = .next t ∧
        KeptBut [.dbg, .sec, .evr] s u ∧ u.sec.session.isSome = true ∧ u.dbg = { d with
          captured := BitVec.ofNat 96 d.accWord, accOp := op, accBusy := true, accTag := d.accTag + 1
          accesses := satAdd d.accesses 1, accAddr := acc.truncate 48
          accData := if op = 2 then acc.extractLsb' 48 32 else d.accData } ∧
        q.src = stewardEp ∧ q.master = 2 ∧ q.len = 3 ∧ q.addr = (acc.truncate 48 &&& ~~~3 : Addr) ∧ q.tag = d.accTag + 1 ∧
        q.op = (if op = 2 then .write else .read) ∧ q.data = if op = 2 then leBytes 4 (acc.extractLsb' 48 32).toNat else [])) ∧
    (let i := command.toNat / 2 % 16
     let even := popCount command.toNat 8 % 2 = 0
     let write := command.getLsbD 5
     let good := even ∧ (write = true → Crypto.crc16 (command :: (leBytes 4 data.toNat).reverse) = check)
     (s.dbgPowered = false ∨ d.twoWire = false ∨ command.toNat / 64 ≠ 2 → exec (.twoWireFrame command data check) s = .next s) ∧
     (s.dbgPowered = true → d.twoWire = true → command.toNat / 64 = 2 →
       let answers (a : BitVec 2) (w : W32) (d : Dbg) : State := { s with dbg := { d with
         twAnswer := a, twData := w
         twCheck := if a = 0 ∧ write = false then Crypto.crc16 (leBytes 4 w.toNat).reverse else 0 } }
       let f := exec (.twoWireFrame command data check) s
       (¬ good → f = .next (answers 2 0 d)) ∧
       (good → s.evr.returnState = false →
         (write = true → i = 2 → f = .next (answers 0 0 { d with accAddr := BitVec.ofNat 48 (d.accAddr.toNat / 2 ^ 32 * 2 ^ 32 + data.toNat) })) ∧
         (write = true → i = 4 → f = .next (answers 0 0 { d with accData := data })) ∧
         (write = false → i = 0 → f = .next (answers 0 (BitVec.ofNat 32 s.statusWord)
           { d with refused := false, overrun := false, resetSeen := false })) ∧
         (write = false → i = 2 → f = .next (answers 0 (d.accAddr.truncate 32) d)) ∧
         (write = false → i = 4 → f = .next (answers 0 d.accData d)) ∧
         (write = false → i = 6 → f = .next (answers 0 (BitVec.ofNat 32 s.part.idWord) d)) ∧
         (i = 5 ∨ 6 < i → f = .next (answers 3 0 d)))))

/-! ### The event recorder and the return of a part (17) -/

/-- R561 to R570, R573, R576, R579: a record that verifies takes the next number on the newest page, and one that does not
stays torn; a page that is full gives way to the oldest one, erased; a worn page exchanges with a spare; suppressed and lost
records are reported; and what the EVR commands, RETURN_PREPARE and RETURN_UNLOCK do. -/
def Obligations.EventRecorder : Prop :=
  ∀ (c : Cmd) (s : State),
    let e := s.evr
    let ps := c.params
    let pg (t : State) (n : Nat) : Page := t.evr.page n
    (∀ n v, e.readonly = true ∨ e.clearing.isSome = true ∨ e.pending = [] → exec (.recordProgram n v) s = .next s) ∧
    (∀ r rest pulses, e.readonly = false → e.clearing = none → e.pending = r :: rest → (pg s e.newest).used + r.size ≤ 4096 → pulses ≤ 4 →
      let p := pg s e.newest
      (∃ t, exec (.recordProgram pulses true) s = .next t ∧ KeptBut [.evr] s t ∧ t.evr = { e with
        pages := t.evr.pages, pending := rest, nextSeq := e.nextSeq + 1 } ∧ pg t e.newest = { p with
          recs := p.recs ++ [{ seq := e.nextSeq, entry := r, torn := false }], used := p.used + r.size
          firstSeq := if p.recs = [] then e.nextSeq else p.firstSeq } ∧ ∀ k, k ≠ e.newest → pg t k = pg s k) ∧
      (∃ t, exec (.recordProgram pulses false) s = .next t ∧ KeptBut [.evr] s t ∧ t.evr = { e with pages := t.evr.pages } ∧
        (pg t e.newest).recs = p.recs ++ [{ seq := e.nextSeq, entry := r, torn := true }] ∧ (pg t e.newest).used = 4096 ∧
        (pg t e.newest).worn = true ∧ ∀ k, k ≠ e.newest → pg t k = pg s k)) ∧
    (∀ r rest old ring, e.readonly = false → e.clearing = none → e.pending = r :: rest → 4096 < (pg s e.newest).used + r.size →
      e.ring = old :: ring → (pg s old).worn = false → ∃ t, exec .pageErase s = .next t ∧ KeptBut [.evr] s t ∧
        t.evr = { e with pages := t.evr.pages, ring := ring ++ [old], eraseCount := e.eraseCount + 1 } ∧
        pg t old = { erases := (pg s old).erases + 1 } ∧ ∀ k, k ≠ old → pg t k = pg s k) ∧
    (e.readonly = true ∨ e.pending = [] → exec .pageErase s = .next s) ∧
    (e.readonly = true ∨ e.exchange? = none → exec .pageExchanged s = .next s) ∧
    (∀ w p, e.readonly = false → e.exchange? = some (w, p) → (pg s p).worn = false → w ≠ p → ∃ t, exec .pageExchanged s = .next t ∧
      KeptBut [.evr] s t ∧ t.evr.ring = e.ring.map (fun n => if n = w then p else n) ∧ t.evr.spares = e.spares.filter (· != p) ++ [w] ∧
      t.evr.eraseCount = 0 ∧ (pg t p).recs = (pg s w).recs.filter (fun r => !r.torn) ∧ (pg t p).erases = (pg s p).erases + 1 ∧
      pg t w = pg s w) ∧
    (∀ code : BitVec 16,
      let b := SMap.look {} e.buckets code.toNat
      (b.suppressed = 0 → exec (.rateSummary code) s = .next s) ∧
      (b.suppressed ≠ 0 → e.readonly = false → e.pending = [] → ∃ t, exec (.rateSummary code) s = .next t ∧ KeptBut [.evr, .time] s t ∧
        t.time = max s.time b.dueAt ∧ (SMap.look {} t.evr.buckets code.toNat).suppressed = 0 ∧
        t.evr.pending = [{ code := 0x9002, slots := [code.toNat, b.suppressed, b.firstAt, b.lastAt].map (BitVec.ofNat 64), time := t.time }])) ∧
    (e.lostRun = 0 ∨ 16384 < e.pendingBytes + 24 → exec .recordsLost s = .next s) ∧
    (e.lostRun ≠ 0 → e.pendingBytes + 24 ≤ 16384 → e.readonly = false → exec .recordsLost s = .next { s with evr := { e with
      lostRun := 0, pending := e.pending ++ [{ code := 0x9007, slots := [BitVec.ofNat 64 e.lostRun], time := s.time }] } }) ∧
    Reads (.evrRead c) cardEvrRead c s (fun u =>
      let code : BitVec 16 := BitVec.ofNat 16 (fieldAt ps 8 2)
      let mask : BitVec 16 := BitVec.ofNat 16 (fieldAt ps 10 2)
      let start : W32 := BitVec.ofNat 32 (fieldAt ps 0 4)
      let rs := if u.evr.clearing.isSome then [] else takeFitting (fieldAt ps 4 4) (u.evr.records.filter fun r =>
        decide (r.seq - start < 0x80000000#32) && decide (r.entry.code &&& mask = code &&& mask))
      leBytes 4 u.evr.head.toNat ++ leBytes 4 u.evr.head.toNat ++ leBytes 4 u.evr.tail.toNat ++ leBytes 4 rs.length ++
        rs.flatMap StoredRec.bytes) ∧
    Reads (.evrHead c) cardEvrHead c s (fun u => leBytes 4 u.evr.stateWord ++ leBytes 4 u.evr.head.toNat ++
      leBytes 4 u.evr.tail.toNat ++ leBytes 4 u.evr.lost.toNat) ∧
    Completes (.evrClear c) cardEvrClear c s (fun u a t => a = .accepted ∧ KeptBut [.evr, .intake] u t ∧
      t.evr.clearing = some (u.evr.head, u.evr.tail) ∧ (∀ n ∈ u.evr.ring, (pg t n).recs = []) ∧ t.evr.records = [] ∧
      (t.entry c.port c.source c.tag).map (·.work) = some (.evrClear (BitVec.ofNat 8 c.port.val) c.source
        (if c.trailer then BitVec.ofNat 8 c.keySlot else 0xFF))) ∧
    Completes (.evrRateSet c) cardEvrRateSet c s (fun u a t => a = .reply Status.ok (leBytes 4 t.evr.stateWord) ∧ KeptBut [.evr] u t ∧
      t.evr.pages = u.evr.pages ∧
      (fieldAt ps 0 2 ≠ 0xFFFF → SMap.look (0, 0) t.evr.overrides (fieldAt ps 0 2) = (fieldAt ps 2 1, fieldAt ps 3 1) ∧
        ∀ k, k ≠ fieldAt ps 0 2 → SMap.look (0, 0) t.evr.overrides k = SMap.look (0, 0) u.evr.overrides k) ∧
      (fieldAt ps 0 2 = 0xFFFF → t.evr.overrides = [])) ∧
    Completes (.returnPrepare c) cardReturnPrepare c s (fun _ a t => a = .reply Status.ok [] ∧ t.evr.returnState = true ∧
      t.evr.returnRecord.length = 512 ∧ t.sec.keys = [] ∧ t.sec.stored = .blank ∧ t.sec.latch = false ∧ t.power.wraps = [] ∧
      t.power.resetDue = some (c.port, false)) ∧
    (∀ auth u, admission cardReturnUnlock c s = some (auth, u) → exec (.returnUnlock c) s = .fault .makerMode) ∧
    (c.trailer = false → ∃ t, exec (.returnUnlock c) s = .next t)

/-! ### Statements of single rules (02) -/

/-- R45: whatever a sender writes into header bytes 10 to 15, the packet that its port takes is the same one and carries the
port's own number and the sender's own source; no packet comes to ask for the intake under another port or source. -/
def Obligations.PortFillsHeader : Prop :=
  ∀ (port : Fin 8) (source : BitVec 16) (bs cs : List Byte) (s : State),
    bs.length = cs.length → bs.take 10 = cs.take 10 → bs.drop 16 = cs.drop 16 →
      parsePacket port source bs = parsePacket port source cs ∧
      (parsePacket port source bs).cmd.port = port ∧ (parsePacket port source bs).cmd.source = source ∧
      (5 ≤ port.val → exec (.packetSubmit port source bs) s = exec (.packetSubmit port source cs) s) ∧
      ∃ t, exec (.packetSubmit port source bs) s = .next t ∧ ∀ k q, q ∈ (t.cport k).requests →
        q ∈ (s.cport k).requests ∨ (k = port.val ∧ q.cmd.port = port ∧ q.cmd.source = source)

/-- R73: CMD_COUNTER_READ answers the four stored counters and leaves the part as it was. -/
def Obligations.CounterRead : Prop :=
  ∀ (c : Cmd) (s : State), Reads (.cmdCounterRead c) cardCmdCounterRead c s (fun u =>
    ((List.range 4).map fun k => leBytes 8 (SMap.look 0 u.intake.counters k).toNat).flatten ++
    [BitVec.ofNat 8 (u.sec.slots % 16), 0, 0, 0])

/-! ### What the links send reads back (08, 09) -/

/-- R306, R308, R310, R276, R278: what a link sends is what the other end reads. A data or control character's 8b/10b symbol
decodes to it without an error under either running disparity. A block's line levels, slot or stuffed transition left
aside, give its header, its payload and the descrambler in step with the scrambler, in NRZ and in PAM4. A frame's bytes are
whole, their CRC holds, and they give the frame back with its op block. -/
def Obligations.LinkCodesReadBack : Prop :=
  (∀ (rd : Bool) (v : Byte), decodeSymbol rd (encodeData rd v) = (v, false, 0) ∧
    ∀ c, encodeControl rd v = some c → decodeSymbol rd c = (v, true, 0)) ∧
  (∀ (pam control : Bool) (v : BitVec 64) (st : BitVec 58),
    let sent := encodeBlock pam control v st
    sent.1.length = (if pam then 34 else 68) ∧
    decodeBlock pam sent.1 st = (if control then 2 else 1, v, sent.2)) ∧
  (∀ f : Frame, (f.op.isSome = true → f.kind = 0) → f.payload.length + 16 < 65536 →
    frameGood (wireBytes f) = true ∧ frameOf (wireBytes f) = f)
end

