-- ==== Sys2Proof/Laws/SMap.lean ====
section
/-!
SUPPORT. Reading after writing in a sparse map, and the canonical form: every write keeps it.
-/
namespace Sys2Proof

variable {α : Type}

/-! ### Reading after writing -/

@[simp] theorem SMap.look_nil (d : α) (k : Nat) : SMap.look d [] k = d := rfl

theorem SMap.look_del_self (d : α) (m : SMap α) (k : Nat) : SMap.look d (SMap.del m k) k = d := by
  induction m with
  | nil => rfl
  | cons e m ih =>
    obtain ⟨k', v⟩ := e
    by_cases h : k' = k <;> simp [SMap.del, SMap.look, h, ih]

theorem SMap.look_del_ne (d : α) (m : SMap α) {k j : Nat} (h : j ≠ k) :
    SMap.look d (SMap.del m k) j = SMap.look d m j := by
  induction m with
  | nil => rfl
  | cons e m ih =>
    obtain ⟨k', v⟩ := e
    by_cases h' : k' = k
    · subst h'; simp [SMap.del, SMap.look, ih, Ne.symm h]
    · simp only [SMap.del, SMap.look, h', if_false, ih]

theorem SMap.look_ins_self (d : α) (m : SMap α) (k : Nat) (v : α) : SMap.look d (SMap.ins m k v) k = v := by
  induction m with
  | nil => simp [SMap.ins, SMap.look]
  | cons e m ih =>
    obtain ⟨k', w⟩ := e
    by_cases h : k' = k
    · simp [SMap.ins, SMap.look, h]
    · by_cases h2 : k < k' <;> simp [SMap.ins, SMap.look, h, h2, ih]

theorem SMap.look_ins_ne (d : α) (m : SMap α) {k j : Nat} (v : α) (h : j ≠ k) :
    SMap.look d (SMap.ins m k v) j = SMap.look d m j := by
  induction m with
  | nil => simp [SMap.ins, SMap.look, Ne.symm h]
  | cons e m ih =>
    obtain ⟨k', w⟩ := e
    by_cases h' : k' = k
    · subst h'; simp [SMap.ins, SMap.look, Ne.symm h]
    · by_cases h2 : k < k'
      · simp [SMap.ins, SMap.look, h', h2, Ne.symm h]
      · simp only [SMap.ins, SMap.look, h', h2, if_false, ih]

/-- A read after a write to the same key gives what was written. -/
@[simp] theorem SMap.look_put_self [DecidableEq α] (d : α) (m : SMap α) (k : Nat) (v : α) :
    SMap.look d (SMap.put d m k v) k = v := by
  unfold SMap.put
  split
  · next h => rw [SMap.look_del_self, h]
  · exact SMap.look_ins_self d m k v

/-- A write leaves every other key alone. -/
theorem SMap.look_put_ne [DecidableEq α] (d : α) (m : SMap α) {k j : Nat} (v : α) (h : j ≠ k) :
    SMap.look d (SMap.put d m k v) j = SMap.look d m j := by
  unfold SMap.put
  split
  · exact SMap.look_del_ne d m h
  · exact SMap.look_ins_ne d m v h

/-- A read after a write, by cases on the key. -/
theorem SMap.look_put [DecidableEq α] (d : α) (m : SMap α) (k j : Nat) (v : α) :
    SMap.look d (SMap.put d m k v) j = if j = k then v else SMap.look d m j := by
  split
  · next h => rw [h, SMap.look_put_self]
  · next h => exact SMap.look_put_ne d m v h

@[simp] theorem SMap.look_upd_self [DecidableEq α] (d : α) (m : SMap α) (k : Nat) (f : α → α) :
    SMap.look d (SMap.upd d m k f) k = f (SMap.look d m k) := SMap.look_put_self d m k _

theorem SMap.look_upd_ne [DecidableEq α] (d : α) (m : SMap α) {k j : Nat} (f : α → α) (h : j ≠ k) :
    SMap.look d (SMap.upd d m k f) j = SMap.look d m j := SMap.look_put_ne d m _ h

theorem SMap.look_upd [DecidableEq α] (d : α) (m : SMap α) (k j : Nat) (f : α → α) :
    SMap.look d (SMap.upd d m k f) j = if j = k then f (SMap.look d m j) else SMap.look d m j := by
  unfold SMap.upd
  rw [SMap.look_put]
  split
  · next h => rw [h]
  · rfl

/-! ### The canonical form -/

/-- The empty map is canonical. -/
theorem SMap.wf_nil (d : α) : SMap.Wf d [] := by simp [SMap.Wf]

theorem SMap.mem_del {m : SMap α} {k : Nat} {e : Nat × α} : e ∈ SMap.del m k → e ∈ m ∧ e.1 ≠ k := by
  induction m with
  | nil => simp [SMap.del]
  | cons a m ih =>
    obtain ⟨k', v⟩ := a
    intro h
    by_cases h' : k' = k
    · subst h'
      simp only [SMap.del, if_true] at h
      exact ⟨List.mem_cons_of_mem _ (ih h).1, (ih h).2⟩
    · simp only [SMap.del, h', if_false, List.mem_cons] at h
      rcases h with rfl | h
      · exact ⟨List.mem_cons_self, h'⟩
      · exact ⟨List.mem_cons_of_mem _ (ih h).1, (ih h).2⟩

theorem SMap.wf_del (d : α) {m : SMap α} (k : Nat) (h : SMap.Wf d m) : SMap.Wf d (SMap.del m k) := by
  refine ⟨?_, fun e he => h.2 e (SMap.mem_del he).1⟩
  induction m with
  | nil => exact List.Pairwise.nil
  | cons a m ih =>
    obtain ⟨k', v⟩ := a
    have hm : SMap.Wf d m := ⟨(List.pairwise_cons.1 h.1).2, fun e he => h.2 e (List.mem_cons_of_mem _ he)⟩
    by_cases h' : k' = k
    · simpa [SMap.del, h'] using ih hm
    · simp only [SMap.del, h', if_false, List.pairwise_cons]
      exact ⟨fun e he => (List.pairwise_cons.1 h.1).1 e (SMap.mem_del he).1, ih hm⟩

theorem SMap.mem_ins {m : SMap α} {k : Nat} {v : α} {e : Nat × α} (h : e ∈ SMap.ins m k v) : e = (k, v) ∨ e ∈ m := by
  induction m with
  | nil => simpa [SMap.ins] using h
  | cons a m ih =>
    obtain ⟨k', w⟩ := a
    by_cases h1 : k' = k
    · simp only [SMap.ins, h1, if_true, List.mem_cons] at h
      rcases h with h | h
      · exact .inl h
      · exact .inr (List.mem_cons_of_mem _ h)
    · by_cases h2 : k < k'
      · simp only [SMap.ins, h1, h2, if_true, if_false, List.mem_cons] at h
        rcases h with h | h | h
        · exact .inl h
        · exact .inr (by simp [h])
        · exact .inr (List.mem_cons_of_mem _ h)
      · simp only [SMap.ins, h1, h2, if_false, List.mem_cons] at h
        rcases h with h | h
        · exact .inr (by simp [h])
        · rcases ih h with h | h
          · exact .inl h
          · exact .inr (List.mem_cons_of_mem _ h)

theorem SMap.wf_ins (d : α) {m : SMap α} (k : Nat) {v : α} (h : SMap.Wf d m) (hv : v ≠ d) :
    SMap.Wf d (SMap.ins m k v) := by
  refine ⟨?_, fun e he => ?_⟩
  · induction m with
    | nil => simp [SMap.ins]
    | cons a m ih =>
      obtain ⟨k', w⟩ := a
      have hm : SMap.Wf d m := ⟨(List.pairwise_cons.1 h.1).2, fun e he => h.2 e (List.mem_cons_of_mem _ he)⟩
      have ha := (List.pairwise_cons.1 h.1).1
      by_cases h1 : k' = k
      · subst h1
        simp only [SMap.ins, if_true, List.pairwise_cons]
        exact ⟨fun e he => ha e he, hm.1⟩
      · by_cases h2 : k < k'
        · simp only [SMap.ins, h1, h2, if_true, if_false, List.pairwise_cons]
          refine ⟨fun e he => ?_, fun e he => ha e he, hm.1⟩
          rcases List.mem_cons.1 he with rfl | he
          · exact h2
          · exact Nat.lt_trans h2 (ha e he)
        · simp only [SMap.ins, h1, h2, if_false, List.pairwise_cons]
          refine ⟨fun e he => ?_, ih hm⟩
          rcases SMap.mem_ins he with rfl | he
          · have : k' < k := by omega
            exact this
          · exact ha e he
  · rcases SMap.mem_ins he with rfl | he
    · exact hv
    · exact h.2 e he

/-- A write keeps the canonical form. -/
theorem SMap.wf_put [DecidableEq α] (d : α) {m : SMap α} (k : Nat) (v : α) (h : SMap.Wf d m) :
    SMap.Wf d (SMap.put d m k v) := by
  unfold SMap.put
  split
  · exact SMap.wf_del d k h
  · next hv => exact SMap.wf_ins d k h hv

/-- An update keeps the canonical form. -/
theorem SMap.wf_upd [DecidableEq α] (d : α) {m : SMap α} (k : Nat) (f : α → α) (h : SMap.Wf d m) :
    SMap.Wf d (SMap.upd d m k f) := SMap.wf_put d k _ h

/-- A run of writes keeps the canonical form. -/
theorem SMap.wf_putRun [DecidableEq α] (d : α) (vs : List α) :
    ∀ {m : SMap α} (k : Nat), SMap.Wf d m → SMap.Wf d (SMap.putRun d m k vs) := by
  induction vs with
  | nil => intro m k h; exact h
  | cons v vs ih => intro m k h; exact ih (k + 1) (SMap.wf_put d k v h)

/-- A map over the entries keeps the canonical form. -/
theorem SMap.wf_mapAll [DecidableEq α] (d : α) {m : SMap α} (f : Nat → α → α) (h : SMap.Wf d m) :
    SMap.Wf d (SMap.mapAll d m f) := by
  unfold SMap.mapAll
  refine ⟨?_, fun e he => by simpa using (List.mem_filter.1 he).2⟩
  refine List.Pairwise.sublist List.filter_sublist ?_
  exact List.pairwise_map.2 h.1

/-- A read after a map over the entries of a canonical map whose default is a fixed point. -/
theorem SMap.look_mapAll [DecidableEq α] (d : α) (f : Nat → α → α) (k : Nat) (hf : f k d = d) {m : SMap α}
    (h : m.Pairwise fun a b => a.1 < b.1) :
    SMap.look d (SMap.mapAll d m f) k = f k (SMap.look d m k) := by
  induction m with
  | nil => simp [SMap.mapAll, SMap.look, hf]
  | cons a m ih =>
    obtain ⟨k', v⟩ := a
    have hm := (List.pairwise_cons.1 h).2
    have hlt := (List.pairwise_cons.1 h).1
    replace ih := ih hm
    by_cases hk : k' = k
    · subst hk
      have hno : SMap.look d m k' = d := by
        clear ih h hm

        induction m with
        | nil => rfl
        | cons b m ih =>
          have hb := hlt b List.mem_cons_self
          have : b.1 ≠ k' := by omega
          obtain ⟨j, w⟩ := b
          simp only [SMap.look, this, if_false]
          exact ih (fun e he => hlt e (List.mem_cons_of_mem _ he))
      by_cases hd : f k' v = d
      · simp only [SMap.mapAll, List.map_cons, List.filter_cons, hd, SMap.look] at ih ⊢
        simpa [hno, hf, hd] using ih
      · simp [SMap.mapAll, SMap.look, hd]
    · by_cases hd : f k' v = d
      · simpa [SMap.mapAll, SMap.look, hd, hk] using ih
      · simpa [SMap.mapAll, SMap.look, hd, hk] using ih

end Sys2Proof
end

