-- ==== Sys2Proof/Laws/Bits.lean ====
section
/-!
SUPPORT. Bits of a word after one is set, and an engine's registers and flags after one is written (12).
-/
namespace Sys2Proof.Machine
open Sys2Proof

/-- Reading a bit after another or the same was set. -/
theorem getLsbD_setBit {w : Nat} (v : BitVec w) {i : Nat} (hi : i < w) (b : Bool) (k : Nat) :
    (setBit v i b).getLsbD k = if k = i then b else v.getLsbD k := by
  have hbit : (BitVec.ofNat w (2 ^ i)).getLsbD k = decide (k = i) := by
    rw [BitVec.getLsbD_ofNat, Nat.testBit_two_pow]
    by_cases h : k = i
    · subst h; simp [hi]
    · simp [h, Ne.symm h]
  unfold setBit
  generalize BitVec.ofNat w (2 ^ i) = m at hbit
  have hge : ¬ k < w → v.getLsbD k = false := fun h => BitVec.getLsbD_of_ge _ _ (Nat.le_of_not_lt h)
  cases b <;> by_cases h : k = i <;> by_cases hk : k < w <;>
    simp only [h, decide_true, decide_false, if_true, if_false] at hbit ⊢ <;>
    simp_all

/-! ### Registers of an engine -/

@[simp] theorem Engine.gr_setG_self (x : Engine) (i : Nat) (v : W32) (p : Bool) : (x.setG i v p).gr i = { v, p } := by
  simp [Engine.gr, Engine.setG]

theorem Engine.gr_setG_ne (x : Engine) {i j : Nat} (v : W32) (p : Bool) (h : j ≠ i) : (x.setG i v p).gr j = x.gr j :=
  SMap.look_put_ne _ _ _ h

@[simp] theorem Engine.acr_setAc_self (x : Engine) (i : Nat) (v : BitVec 72) (p : Bool) :
    (x.setAc i v p).acr i = { v, p } := by
  simp [Engine.acr, Engine.setAc]

theorem Engine.acr_setAc_ne (x : Engine) {i j : Nat} (v : BitVec 72) (p : Bool) (h : j ≠ i) :
    (x.setAc i v p).acr j = x.acr j := SMap.look_put_ne _ _ _ h

@[simp] theorem Engine.pr_setP_self (x : Engine) (i : Nat) (v : W32) (p : Bool) : (x.setP i v p).pr i = { v, p } := by
  simp [Engine.pr, Engine.setP]

theorem Engine.pr_setP_ne (x : Engine) {i j : Nat} (v : W32) (p : Bool) (h : j ≠ i) : (x.setP i v p).pr j = x.pr j :=
  SMap.look_put_ne _ _ _ h

@[simp] theorem Engine.mr_setM_self (x : Engine) (i : Nat) (v : W32) (p : Bool) : (x.setM i v p).mr i = { v, p } := by
  simp [Engine.mr, Engine.setM]

theorem Engine.mr_setM_ne (x : Engine) {i j : Nat} (v : W32) (p : Bool) (h : j ≠ i) : (x.setM i v p).mr j = x.mr j :=
  SMap.look_put_ne _ _ _ h

@[simp] theorem Engine.gr_flag (x : Engine) (i j : Nat) (b p : Bool) : (x.flag i b p).gr j = x.gr j := rfl

@[simp] theorem Engine.acr_flag (x : Engine) (i j : Nat) (b p : Bool) : (x.flag i b p).acr j = x.acr j := rfl

@[simp] theorem Engine.setG_sr (x : Engine) (i : Nat) (v : W32) (p : Bool) : (x.setG i v p).sr = x.sr := rfl

@[simp] theorem Engine.setG_fp (x : Engine) (i : Nat) (v : W32) (p : Bool) : (x.setG i v p).fp = x.fp := rfl

@[simp] theorem Engine.setAc_sr (x : Engine) (i : Nat) (v : BitVec 72) (p : Bool) : (x.setAc i v p).sr = x.sr := rfl

@[simp] theorem Engine.setAc_fp (x : Engine) (i : Nat) (v : BitVec 72) (p : Bool) : (x.setAc i v p).fp = x.fp := rfl

/-- The bits of sr after a flag is written. -/
theorem Engine.flag_sr (x : Engine) {i : Nat} (hi : i < 5) (b p : Bool) (k : Nat) :
    (x.flag i b p).sr.getLsbD k = if k = i then b else x.sr.getLsbD k :=
  getLsbD_setBit _ (by omega) b k

/-- The poison of the flags after one is written. -/
theorem Engine.flag_fp (x : Engine) {i : Nat} (hi : i < 5) (b p : Bool) (k : Nat) :
    (x.flag i b p).fp.getLsbD k = if k = i then p else x.fp.getLsbD k :=
  getLsbD_setBit _ hi p k

end Sys2Proof.Machine
end

