-- ==== Sys2Proof/Laws/Crypto.lean ====
section
/-!
SUPPORT. The lengths of a SHA-256 digest (06 R188) and of an AES-CMAC (02 R47).
-/
namespace Sys2Proof.Machine.Crypto
open Sys2Proof Sys2Proof.Machine

theorem shaRound_length {st : List W32} (kw : W32) (h : st.length = 8) : (shaRound st kw).length = 8 := by
  match st, h with
  | [_, _, _, _, _, _, _, _], _ => rfl

theorem shaRounds_length (kws : List W32) : ∀ {st : List W32}, st.length = 8 → (kws.foldl shaRound st).length = 8 := by
  induction kws with
  | nil => exact id
  | cons kw kws ih => exact fun h => ih (shaRound_length kw h)

theorem shaBlocks_length (k : List W32) (bs : List (List Byte)) :
    ∀ {h : List W32}, h.length = 8 → (bs.foldl (shaBlock k) h).length = 8 := by
  induction bs with
  | nil => exact id
  | cons b bs ih =>
    intro h hl
    apply ih
    simp [shaBlock, hl, shaRounds_length]

theorem shaH0_length : shaH0.length = 8 := by decide +kernel

theorem leBytes_length (n : Nat) : ∀ v, (leBytes n v).length = n := by
  induction n with
  | zero => intro v; rfl
  | succ n ih => intro v; simp [leBytes, ih]

/-- A digest is 32 bytes. -/
theorem sha256_length (m : List Byte) : (sha256 m).length = 32 := by
  have h := shaBlocks_length shaK (chunksOf 64 ((padTo (roundUp 64 (m.length + 9) - 8) (m ++ [0x80]) ++
    beBytes 8 (8 * m.length)).length / 64) (padTo (roundUp 64 (m.length + 9) - 8) (m ++ [0x80]) ++
    beBytes 8 (8 * m.length))) shaH0_length
  unfold sha256
  dsimp only
  generalize List.foldl (shaBlock shaK) shaH0 _ = l at h ⊢
  match l, h with
  | [_, _, _, _, _, _, _, _], _ => simp [beBytes, leBytes_length]

/-- The pieces of a list that fills them. -/
theorem chunksOf_spec {α : Type} {n : Nat} (hn : 0 < n) : ∀ (f : Nat) (l : List α), n * f ≤ l.length →
    (chunksOf n f l).length = f ∧ ∀ c ∈ chunksOf n f l, c.length = n
  | 0, _, _ => ⟨rfl, nofun⟩
  | f + 1, [], h => by simp at h; omega
  | f + 1, x :: xs, h => by
    have h' : n * f ≤ ((x :: xs).drop n).length := by
      rw [List.length_drop]; rw [Nat.mul_succ] at h; omega
    obtain ⟨a, b⟩ := chunksOf_spec hn f _ h'
    refine ⟨by simp only [chunksOf, List.length_cons, a], ?_⟩
    intro c hc
    rcases List.mem_cons.1 hc with rfl | hc
    · rw [List.length_take]; rw [Nat.mul_succ] at h; omega
    · exact b c hc

theorem padTo_length (n : Nat) (bs : List Byte) : (padTo n bs).length = n := by
  unfold padTo slice
  simp only [List.drop_zero, List.length_append, List.length_take, List.length_replicate]
  omega

theorem expandGo_spec : ∀ (n i : Nat) (r : Byte) (ws : List (List Byte)), 8 ≤ ws.length → (∀ w ∈ ws, w.length = 4) →
    (expandGo n i r ws).length = ws.length + n ∧ ∀ w ∈ expandGo n i r ws, w.length = 4
  | 0, _, _, ws, _, hw => ⟨rfl, hw⟩
  | n + 1, i, r, ws, h8, hw => by
    have h7 : (nth [] ws 7).length = 4 := by
      have : 7 < ws.length := h8
      simp only [nth, List.getElem?_eq_getElem this, Option.getD_some]
      exact hw _ (List.getElem_mem this)
    have h0 : (ws.headD []).length = 4 := by
      match ws, h8 with
      | w :: _, _ => exact hw w (.head _)
    have next (t : List Byte) (ht : t.length = 4) (r' : Byte) :
        (expandGo n (i + 1) r' (xorBytes (nth [] ws 7) t :: ws)).length = ws.length + (n + 1) ∧
          ∀ w ∈ expandGo n (i + 1) r' (xorBytes (nth [] ws 7) t :: ws), w.length = 4 := by
      obtain ⟨a, b⟩ := expandGo_spec n (i + 1) r' (xorBytes (nth [] ws 7) t :: ws) (by simp; omega) (by
        intro w m
        rcases List.mem_cons.1 m with rfl | m
        · simp [xorBytes, h7, ht]
        · exact hw w m)
      exact ⟨by rw [a]; simp; omega, b⟩
    unfold expandGo
    dsimp only
    generalize ws.headD [] = t at h0
    split
    · exact next _ (by simp [xorBytes, splice, h0]) _
    · split
      · exact next _ (by simp [h0]) _
      · exact next _ h0 _

theorem roundKeys_spec (key : List Byte) : (roundKeys key).length = 15 ∧ ∀ k ∈ roundKeys key, k.length = 16 := by
  obtain ⟨a, b⟩ := chunksOf_spec (n := 4) (by decide) 8 (padTo 32 key) (by rw [padTo_length])
  obtain ⟨c, d⟩ := expandGo_spec 52 8 1 (chunksOf 4 8 (padTo 32 key)).reverse (by simp [a]) (by simpa using b)
  unfold roundKeys
  refine chunksOf_spec (by decide) 15 _ ?_
  rw [List.length_flatten, List.map_congr_left (g := fun _ => 4) (by simpa using d)]
  simp only [List.map_const', List.length_reverse, List.sum_replicate, c, a]
  decide

theorem encRounds_length : ∀ (ks : List (List Byte)) (b : List Byte), ks ≠ [] → (∀ k ∈ ks, k.length = 16) →
    (encRounds ks b).length = 16
  | [k], b, _, h => by simp [encRounds, xorBytes, shiftRows, h]
  | _ :: k :: ks, b, _, h => encRounds_length (k :: ks) _ nofun fun x m => h x (.tail _ m)

/-- An encrypted block is 16 bytes. -/
theorem encrypt_length (key b : List Byte) : (encrypt key b).length = 16 := by
  have h := roundKeys_spec key
  unfold encrypt
  generalize roundKeys key = l at h
  match l, h with
  | k :: q :: ks, h => exact encRounds_length _ _ nofun fun x m => h.2 x (.tail _ m)

/-- A CMAC is 16 bytes. -/
theorem cmac_length (key m : List Byte) : (cmac key m).length = 16 := by
  unfold cmac cbcMac
  simp [encrypt_length]
end Sys2Proof.Machine.Crypto
end

