-- ==== Sys2Proof/Laws/State.lean ====
section
/-!
SUPPORT. The updates of the state: what each leaves as it was, and what its own accessor reads afterwards.
-/
namespace Sys2Proof.Machine
open Sys2Proof

/-! ### What an update leaves as it was -/

@[simp] theorem State.setDie_keeps (s : State) (i : Nat) (f : Die → Die) :
    (s.setDie i f).part = s.part ∧ (s.setDie i f).intake = s.intake ∧ (s.setDie i f).fab = s.fab ∧
    (s.setDie i f).coping = s.coping ∧ (s.setDie i f).cfg = s.cfg ∧ (s.setDie i f).cap = s.cap ∧
    (s.setDie i f).bond = s.bond ∧ (s.setDie i f).lanes = s.lanes ∧ (s.setDie i f).grout = s.grout ∧
    (s.setDie i f).engines = s.engines ∧ (s.setDie i f).dram = s.dram ∧ (s.setDie i f).sec = s.sec ∧
    (s.setDie i f).gst = s.gst ∧ (s.setDie i f).power = s.power ∧ (s.setDie i f).clk = s.clk ∧
    (s.setDie i f).dbg = s.dbg ∧ (s.setDie i f).evr = s.evr ∧ (s.setDie i f).svp = s.svp ∧
    (s.setDie i f).latches = s.latches ∧ (s.setDie i f).time = s.time ∧ (s.setDie i f).freeNo = s.freeNo ∧
    (s.setDie i f).pending = s.pending :=
  ⟨rfl, rfl, rfl, rfl, rfl, rfl, rfl, rfl, rfl, rfl, rfl, rfl, rfl, rfl, rfl, rfl, rfl, rfl, rfl, rfl, rfl, rfl⟩

@[simp] theorem State.setUnit_keeps (s : State) (u : Nat) (f : GUnit → GUnit) :
    (s.setUnit u f).part = s.part ∧ (s.setUnit u f).dev = s.dev ∧ (s.setUnit u f).intake = s.intake ∧
    (s.setUnit u f).fab = s.fab ∧ (s.setUnit u f).coping = s.coping ∧ (s.setUnit u f).cfg = s.cfg ∧
    (s.setUnit u f).cap = s.cap ∧ (s.setUnit u f).bond = s.bond ∧ (s.setUnit u f).lanes = s.lanes ∧
    (s.setUnit u f).engines = s.engines ∧ (s.setUnit u f).dram = s.dram ∧ (s.setUnit u f).sec = s.sec ∧
    (s.setUnit u f).gst = s.gst ∧ (s.setUnit u f).power = s.power ∧ (s.setUnit u f).clk = s.clk ∧
    (s.setUnit u f).dbg = s.dbg ∧ (s.setUnit u f).evr = s.evr ∧ (s.setUnit u f).svp = s.svp ∧
    (s.setUnit u f).latches = s.latches ∧ (s.setUnit u f).time = s.time ∧ (s.setUnit u f).freeNo = s.freeNo ∧
    (s.setUnit u f).pending = s.pending :=
  ⟨rfl, rfl, rfl, rfl, rfl, rfl, rfl, rfl, rfl, rfl, rfl, rfl, rfl, rfl, rfl, rfl, rfl, rfl, rfl, rfl, rfl, rfl⟩

@[simp] theorem State.setEng_keeps (s : State) (e : Nat) (f : Engine → Engine) :
    (s.setEng e f).part = s.part ∧ (s.setEng e f).dev = s.dev ∧ (s.setEng e f).intake = s.intake ∧
    (s.setEng e f).fab = s.fab ∧ (s.setEng e f).coping = s.coping ∧ (s.setEng e f).cfg = s.cfg ∧
    (s.setEng e f).cap = s.cap ∧ (s.setEng e f).bond = s.bond ∧ (s.setEng e f).lanes = s.lanes ∧
    (s.setEng e f).grout = s.grout ∧ (s.setEng e f).dram = s.dram ∧ (s.setEng e f).sec = s.sec ∧
    (s.setEng e f).gst = s.gst ∧ (s.setEng e f).power = s.power ∧ (s.setEng e f).clk = s.clk ∧
    (s.setEng e f).dbg = s.dbg ∧ (s.setEng e f).evr = s.evr ∧ (s.setEng e f).svp = s.svp ∧
    (s.setEng e f).latches = s.latches ∧ (s.setEng e f).time = s.time ∧ (s.setEng e f).freeNo = s.freeNo ∧
    (s.setEng e f).pending = s.pending :=
  ⟨rfl, rfl, rfl, rfl, rfl, rfl, rfl, rfl, rfl, rfl, rfl, rfl, rfl, rfl, rfl, rfl, rfl, rfl, rfl, rfl, rfl, rfl⟩

@[simp] theorem State.setSpace_keeps (s : State) (p : Fin 8) (src : BitVec 16) (f : ReplySpace → ReplySpace) :
    (s.setSpace p src f).part = s.part ∧ (s.setSpace p src f).dev = s.dev ∧ (s.setSpace p src f).fab = s.fab ∧
    (s.setSpace p src f).coping = s.coping ∧ (s.setSpace p src f).cfg = s.cfg ∧ (s.setSpace p src f).cap = s.cap ∧
    (s.setSpace p src f).bond = s.bond ∧ (s.setSpace p src f).lanes = s.lanes ∧
    (s.setSpace p src f).grout = s.grout ∧ (s.setSpace p src f).engines = s.engines ∧
    (s.setSpace p src f).dram = s.dram ∧ (s.setSpace p src f).sec = s.sec ∧ (s.setSpace p src f).gst = s.gst ∧
    (s.setSpace p src f).power = s.power ∧ (s.setSpace p src f).clk = s.clk ∧ (s.setSpace p src f).dbg = s.dbg ∧
    (s.setSpace p src f).evr = s.evr ∧ (s.setSpace p src f).svp = s.svp ∧ (s.setSpace p src f).latches = s.latches ∧
    (s.setSpace p src f).time = s.time ∧ (s.setSpace p src f).freeNo = s.freeNo ∧
    (s.setSpace p src f).pending = s.pending :=
  ⟨rfl, rfl, rfl, rfl, rfl, rfl, rfl, rfl, rfl, rfl, rfl, rfl, rfl, rfl, rfl, rfl, rfl, rfl, rfl, rfl, rfl, rfl⟩

@[simp] theorem State.setCport_keeps (s : State) (p : Nat) (f : Port → Port) :
    (s.setCport p f).part = s.part ∧ (s.setCport p f).dev = s.dev ∧ (s.setCport p f).fab = s.fab ∧
    (s.setCport p f).coping = s.coping ∧ (s.setCport p f).cfg = s.cfg ∧ (s.setCport p f).cap = s.cap ∧
    (s.setCport p f).bond = s.bond ∧ (s.setCport p f).lanes = s.lanes ∧ (s.setCport p f).grout = s.grout ∧
    (s.setCport p f).engines = s.engines ∧ (s.setCport p f).dram = s.dram ∧ (s.setCport p f).sec = s.sec ∧
    (s.setCport p f).gst = s.gst ∧ (s.setCport p f).power = s.power ∧ (s.setCport p f).clk = s.clk ∧
    (s.setCport p f).dbg = s.dbg ∧ (s.setCport p f).evr = s.evr ∧ (s.setCport p f).svp = s.svp ∧
    (s.setCport p f).latches = s.latches ∧ (s.setCport p f).time = s.time ∧ (s.setCport p f).freeNo = s.freeNo ∧
    (s.setCport p f).pending = s.pending :=
  ⟨rfl, rfl, rfl, rfl, rfl, rfl, rfl, rfl, rfl, rfl, rfl, rfl, rfl, rfl, rfl, rfl, rfl, rfl, rfl, rfl, rfl, rfl⟩

@[simp] theorem State.setLatch_keeps (s : State) (k : Nat) (v : W32) :
    (s.setLatch k v).part = s.part ∧ (s.setLatch k v).dev = s.dev ∧ (s.setLatch k v).intake = s.intake ∧
    (s.setLatch k v).fab = s.fab ∧ (s.setLatch k v).coping = s.coping ∧ (s.setLatch k v).cfg = s.cfg ∧
    (s.setLatch k v).cap = s.cap ∧ (s.setLatch k v).bond = s.bond ∧ (s.setLatch k v).lanes = s.lanes ∧
    (s.setLatch k v).grout = s.grout ∧ (s.setLatch k v).engines = s.engines ∧ (s.setLatch k v).dram = s.dram ∧
    (s.setLatch k v).sec = s.sec ∧ (s.setLatch k v).gst = s.gst ∧ (s.setLatch k v).power = s.power ∧
    (s.setLatch k v).clk = s.clk ∧ (s.setLatch k v).dbg = s.dbg ∧ (s.setLatch k v).evr = s.evr ∧
    (s.setLatch k v).svp = s.svp ∧ (s.setLatch k v).time = s.time ∧ (s.setLatch k v).freeNo = s.freeNo ∧
    (s.setLatch k v).pending = s.pending :=
  ⟨rfl, rfl, rfl, rfl, rfl, rfl, rfl, rfl, rfl, rfl, rfl, rfl, rfl, rfl, rfl, rfl, rfl, rfl, rfl, rfl, rfl, rfl⟩

@[simp] theorem State.setLane_keeps (s : State) (l : Nat) (f : Lane → Lane) :
    (s.setLane l f).part = s.part ∧ (s.setLane l f).dev = s.dev ∧ (s.setLane l f).intake = s.intake ∧
    (s.setLane l f).fab = s.fab ∧ (s.setLane l f).coping = s.coping ∧ (s.setLane l f).cfg = s.cfg ∧
    (s.setLane l f).cap = s.cap ∧ (s.setLane l f).bond = s.bond ∧ (s.setLane l f).grout = s.grout ∧
    (s.setLane l f).engines = s.engines ∧ (s.setLane l f).dram = s.dram ∧ (s.setLane l f).sec = s.sec ∧
    (s.setLane l f).gst = s.gst ∧ (s.setLane l f).power = s.power ∧ (s.setLane l f).clk = s.clk ∧
    (s.setLane l f).dbg = s.dbg ∧ (s.setLane l f).evr = s.evr ∧ (s.setLane l f).svp = s.svp ∧
    (s.setLane l f).latches = s.latches ∧ (s.setLane l f).time = s.time ∧ (s.setLane l f).freeNo = s.freeNo ∧
    (s.setLane l f).pending = s.pending :=
  ⟨rfl, rfl, rfl, rfl, rfl, rfl, rfl, rfl, rfl, rfl, rfl, rfl, rfl, rfl, rfl, rfl, rfl, rfl, rfl, rfl, rfl, rfl⟩

@[simp] theorem State.setPcie_keeps (s : State) (c : Nat) (f : Pcie → Pcie) :
    (s.setPcie c f).part = s.part ∧ (s.setPcie c f).dev = s.dev ∧ (s.setPcie c f).intake = s.intake ∧
    (s.setPcie c f).fab = s.fab ∧ (s.setPcie c f).coping = s.coping ∧ (s.setPcie c f).cfg = s.cfg ∧
    (s.setPcie c f).cap = s.cap ∧ (s.setPcie c f).bond = s.bond ∧ (s.setPcie c f).grout = s.grout ∧
    (s.setPcie c f).engines = s.engines ∧ (s.setPcie c f).dram = s.dram ∧ (s.setPcie c f).sec = s.sec ∧
    (s.setPcie c f).gst = s.gst ∧ (s.setPcie c f).power = s.power ∧ (s.setPcie c f).clk = s.clk ∧
    (s.setPcie c f).dbg = s.dbg ∧ (s.setPcie c f).evr = s.evr ∧ (s.setPcie c f).svp = s.svp ∧
    (s.setPcie c f).latches = s.latches ∧ (s.setPcie c f).time = s.time ∧ (s.setPcie c f).freeNo = s.freeNo ∧
    (s.setPcie c f).pending = s.pending :=
  ⟨rfl, rfl, rfl, rfl, rfl, rfl, rfl, rfl, rfl, rfl, rfl, rfl, rfl, rfl, rfl, rfl, rfl, rfl, rfl, rfl, rfl, rfl⟩

@[simp] theorem State.setGrp_keeps (s : State) (g : Nat) (f : BondGroup → BondGroup) :
    (s.setGrp g f).part = s.part ∧ (s.setGrp g f).dev = s.dev ∧ (s.setGrp g f).intake = s.intake ∧
    (s.setGrp g f).fab = s.fab ∧ (s.setGrp g f).coping = s.coping ∧ (s.setGrp g f).cfg = s.cfg ∧
    (s.setGrp g f).cap = s.cap ∧ (s.setGrp g f).lanes = s.lanes ∧ (s.setGrp g f).grout = s.grout ∧
    (s.setGrp g f).engines = s.engines ∧ (s.setGrp g f).dram = s.dram ∧ (s.setGrp g f).sec = s.sec ∧
    (s.setGrp g f).gst = s.gst ∧ (s.setGrp g f).power = s.power ∧ (s.setGrp g f).clk = s.clk ∧
    (s.setGrp g f).dbg = s.dbg ∧ (s.setGrp g f).evr = s.evr ∧ (s.setGrp g f).svp = s.svp ∧
    (s.setGrp g f).latches = s.latches ∧ (s.setGrp g f).time = s.time ∧ (s.setGrp g f).freeNo = s.freeNo ∧
    (s.setGrp g f).pending = s.pending :=
  ⟨rfl, rfl, rfl, rfl, rfl, rfl, rfl, rfl, rfl, rfl, rfl, rfl, rfl, rfl, rfl, rfl, rfl, rfl, rfl, rfl, rfl, rfl⟩

@[simp] theorem State.setLe_keeps (s : State) (x : LeAddr) (f : Le → Le) :
    (s.setLe x f).part = s.part ∧ (s.setLe x f).dev = s.dev ∧ (s.setLe x f).intake = s.intake ∧
    (s.setLe x f).coping = s.coping ∧ (s.setLe x f).cfg = s.cfg ∧ (s.setLe x f).cap = s.cap ∧
    (s.setLe x f).bond = s.bond ∧ (s.setLe x f).lanes = s.lanes ∧ (s.setLe x f).grout = s.grout ∧
    (s.setLe x f).engines = s.engines ∧ (s.setLe x f).dram = s.dram ∧ (s.setLe x f).sec = s.sec ∧
    (s.setLe x f).gst = s.gst ∧ (s.setLe x f).power = s.power ∧ (s.setLe x f).clk = s.clk ∧
    (s.setLe x f).dbg = s.dbg ∧ (s.setLe x f).evr = s.evr ∧ (s.setLe x f).svp = s.svp ∧
    (s.setLe x f).latches = s.latches ∧ (s.setLe x f).time = s.time ∧ (s.setLe x f).freeNo = s.freeNo ∧
    (s.setLe x f).pending = s.pending :=
  ⟨rfl, rfl, rfl, rfl, rfl, rfl, rfl, rfl, rfl, rfl, rfl, rfl, rfl, rfl, rfl, rfl, rfl, rfl, rfl, rfl, rfl, rfl⟩

@[simp] theorem State.setGroup_keeps (s : State) (g : SeamGroup) (f : Group → Group) :
    (s.setGroup g f).part = s.part ∧ (s.setGroup g f).dev = s.dev ∧ (s.setGroup g f).intake = s.intake ∧
    (s.setGroup g f).coping = s.coping ∧ (s.setGroup g f).cfg = s.cfg ∧ (s.setGroup g f).cap = s.cap ∧
    (s.setGroup g f).bond = s.bond ∧ (s.setGroup g f).lanes = s.lanes ∧ (s.setGroup g f).grout = s.grout ∧
    (s.setGroup g f).engines = s.engines ∧ (s.setGroup g f).dram = s.dram ∧ (s.setGroup g f).sec = s.sec ∧
    (s.setGroup g f).gst = s.gst ∧ (s.setGroup g f).power = s.power ∧ (s.setGroup g f).clk = s.clk ∧
    (s.setGroup g f).dbg = s.dbg ∧ (s.setGroup g f).evr = s.evr ∧ (s.setGroup g f).svp = s.svp ∧
    (s.setGroup g f).latches = s.latches ∧ (s.setGroup g f).time = s.time ∧ (s.setGroup g f).freeNo = s.freeNo ∧
    (s.setGroup g f).pending = s.pending :=
  ⟨rfl, rfl, rfl, rfl, rfl, rfl, rfl, rfl, rfl, rfl, rfl, rfl, rfl, rfl, rfl, rfl, rfl, rfl, rfl, rfl, rfl, rfl⟩

@[simp] theorem State.setPort_keeps (s : State) (q : Nat) (f : FabPort → FabPort) :
    (s.setPort q f).part = s.part ∧ (s.setPort q f).dev = s.dev ∧ (s.setPort q f).intake = s.intake ∧
    (s.setPort q f).coping = s.coping ∧ (s.setPort q f).cfg = s.cfg ∧ (s.setPort q f).cap = s.cap ∧
    (s.setPort q f).bond = s.bond ∧ (s.setPort q f).lanes = s.lanes ∧ (s.setPort q f).grout = s.grout ∧
    (s.setPort q f).engines = s.engines ∧ (s.setPort q f).dram = s.dram ∧ (s.setPort q f).sec = s.sec ∧
    (s.setPort q f).gst = s.gst ∧ (s.setPort q f).power = s.power ∧ (s.setPort q f).clk = s.clk ∧
    (s.setPort q f).dbg = s.dbg ∧ (s.setPort q f).evr = s.evr ∧ (s.setPort q f).svp = s.svp ∧
    (s.setPort q f).latches = s.latches ∧ (s.setPort q f).time = s.time ∧ (s.setPort q f).freeNo = s.freeNo ∧
    (s.setPort q f).pending = s.pending :=
  ⟨rfl, rfl, rfl, rfl, rfl, rfl, rfl, rfl, rfl, rfl, rfl, rfl, rfl, rfl, rfl, rfl, rfl, rfl, rfl, rfl, rfl, rfl⟩

@[simp] theorem State.setSlabPort_keeps (s : State) (n slab x : Nat) (f : SlabPort → SlabPort) :
    (s.setSlabPort n slab x f).part = s.part ∧ (s.setSlabPort n slab x f).dev = s.dev ∧
    (s.setSlabPort n slab x f).intake = s.intake ∧ (s.setSlabPort n slab x f).fab = s.fab ∧
    (s.setSlabPort n slab x f).cfg = s.cfg ∧ (s.setSlabPort n slab x f).cap = s.cap ∧
    (s.setSlabPort n slab x f).bond = s.bond ∧ (s.setSlabPort n slab x f).lanes = s.lanes ∧
    (s.setSlabPort n slab x f).grout = s.grout ∧ (s.setSlabPort n slab x f).engines = s.engines ∧
    (s.setSlabPort n slab x f).dram = s.dram ∧ (s.setSlabPort n slab x f).sec = s.sec ∧
    (s.setSlabPort n slab x f).gst = s.gst ∧ (s.setSlabPort n slab x f).power = s.power ∧
    (s.setSlabPort n slab x f).clk = s.clk ∧ (s.setSlabPort n slab x f).dbg = s.dbg ∧
    (s.setSlabPort n slab x f).evr = s.evr ∧ (s.setSlabPort n slab x f).svp = s.svp ∧
    (s.setSlabPort n slab x f).latches = s.latches ∧ (s.setSlabPort n slab x f).time = s.time ∧
    (s.setSlabPort n slab x f).freeNo = s.freeNo ∧ (s.setSlabPort n slab x f).pending = s.pending :=
  ⟨rfl, rfl, rfl, rfl, rfl, rfl, rfl, rfl, rfl, rfl, rfl, rfl, rfl, rfl, rfl, rfl, rfl, rfl, rfl, rfl, rfl, rfl⟩

@[simp] theorem State.setColl_keeps (s : State) (n : Nat) (f : Collector → Collector) :
    (s.setColl n f).part = s.part ∧ (s.setColl n f).dev = s.dev ∧ (s.setColl n f).intake = s.intake ∧
    (s.setColl n f).fab = s.fab ∧ (s.setColl n f).coping = s.coping ∧ (s.setColl n f).cfg = s.cfg ∧
    (s.setColl n f).bond = s.bond ∧ (s.setColl n f).lanes = s.lanes ∧ (s.setColl n f).grout = s.grout ∧
    (s.setColl n f).engines = s.engines ∧ (s.setColl n f).dram = s.dram ∧ (s.setColl n f).sec = s.sec ∧
    (s.setColl n f).gst = s.gst ∧ (s.setColl n f).power = s.power ∧ (s.setColl n f).clk = s.clk ∧
    (s.setColl n f).dbg = s.dbg ∧ (s.setColl n f).evr = s.evr ∧ (s.setColl n f).svp = s.svp ∧
    (s.setColl n f).latches = s.latches ∧ (s.setColl n f).time = s.time ∧ (s.setColl n f).freeNo = s.freeNo ∧
    (s.setColl n f).pending = s.pending :=
  ⟨rfl, rfl, rfl, rfl, rfl, rfl, rfl, rfl, rfl, rfl, rfl, rfl, rfl, rfl, rfl, rfl, rfl, rfl, rfl, rfl, rfl, rfl⟩

@[simp] theorem State.setTrig_keeps (s : State) (u : Nat) (f : Trigger → Trigger) :
    (s.setTrig u f).part = s.part ∧ (s.setTrig u f).dev = s.dev ∧ (s.setTrig u f).intake = s.intake ∧
    (s.setTrig u f).fab = s.fab ∧ (s.setTrig u f).coping = s.coping ∧ (s.setTrig u f).cfg = s.cfg ∧
    (s.setTrig u f).bond = s.bond ∧ (s.setTrig u f).lanes = s.lanes ∧ (s.setTrig u f).grout = s.grout ∧
    (s.setTrig u f).engines = s.engines ∧ (s.setTrig u f).dram = s.dram ∧ (s.setTrig u f).sec = s.sec ∧
    (s.setTrig u f).gst = s.gst ∧ (s.setTrig u f).power = s.power ∧ (s.setTrig u f).clk = s.clk ∧
    (s.setTrig u f).dbg = s.dbg ∧ (s.setTrig u f).evr = s.evr ∧ (s.setTrig u f).svp = s.svp ∧
    (s.setTrig u f).latches = s.latches ∧ (s.setTrig u f).time = s.time ∧ (s.setTrig u f).freeNo = s.freeNo ∧
    (s.setTrig u f).pending = s.pending :=
  ⟨rfl, rfl, rfl, rfl, rfl, rfl, rfl, rfl, rfl, rfl, rfl, rfl, rfl, rfl, rfl, rfl, rfl, rfl, rfl, rfl, rfl, rfl⟩

@[simp] theorem State.setChan_keeps (s : State) (c : Nat) (f : Chan → Chan) :
    (s.setChan c f).part = s.part ∧ (s.setChan c f).dev = s.dev ∧ (s.setChan c f).intake = s.intake ∧
    (s.setChan c f).fab = s.fab ∧ (s.setChan c f).coping = s.coping ∧ (s.setChan c f).cfg = s.cfg ∧
    (s.setChan c f).cap = s.cap ∧ (s.setChan c f).bond = s.bond ∧ (s.setChan c f).lanes = s.lanes ∧
    (s.setChan c f).grout = s.grout ∧ (s.setChan c f).engines = s.engines ∧ (s.setChan c f).sec = s.sec ∧
    (s.setChan c f).gst = s.gst ∧ (s.setChan c f).power = s.power ∧ (s.setChan c f).clk = s.clk ∧
    (s.setChan c f).dbg = s.dbg ∧ (s.setChan c f).evr = s.evr ∧ (s.setChan c f).svp = s.svp ∧
    (s.setChan c f).latches = s.latches ∧ (s.setChan c f).time = s.time ∧ (s.setChan c f).freeNo = s.freeNo ∧
    (s.setChan c f).pending = s.pending :=
  ⟨rfl, rfl, rfl, rfl, rfl, rfl, rfl, rfl, rfl, rfl, rfl, rfl, rfl, rfl, rfl, rfl, rfl, rfl, rfl, rfl, rfl, rfl⟩

@[simp] theorem State.setQueue_keeps (s : State) (p : Nat) (q : List DReq) :
    (s.setQueue p q).part = s.part ∧ (s.setQueue p q).dev = s.dev ∧ (s.setQueue p q).intake = s.intake ∧
    (s.setQueue p q).fab = s.fab ∧ (s.setQueue p q).coping = s.coping ∧ (s.setQueue p q).cfg = s.cfg ∧
    (s.setQueue p q).cap = s.cap ∧ (s.setQueue p q).bond = s.bond ∧ (s.setQueue p q).lanes = s.lanes ∧
    (s.setQueue p q).grout = s.grout ∧ (s.setQueue p q).engines = s.engines ∧ (s.setQueue p q).sec = s.sec ∧
    (s.setQueue p q).gst = s.gst ∧ (s.setQueue p q).power = s.power ∧ (s.setQueue p q).clk = s.clk ∧
    (s.setQueue p q).dbg = s.dbg ∧ (s.setQueue p q).evr = s.evr ∧ (s.setQueue p q).svp = s.svp ∧
    (s.setQueue p q).latches = s.latches ∧ (s.setQueue p q).time = s.time ∧ (s.setQueue p q).freeNo = s.freeNo ∧
    (s.setQueue p q).pending = s.pending :=
  ⟨rfl, rfl, rfl, rfl, rfl, rfl, rfl, rfl, rfl, rfl, rfl, rfl, rfl, rfl, rfl, rfl, rfl, rfl, rfl, rfl, rfl, rfl⟩

@[simp] theorem State.setLoop_keeps (s : State) (k : Nat) (f : LoopReg → LoopReg) :
    (s.setLoop k f).part = s.part ∧ (s.setLoop k f).dev = s.dev ∧ (s.setLoop k f).intake = s.intake ∧
    (s.setLoop k f).fab = s.fab ∧ (s.setLoop k f).coping = s.coping ∧ (s.setLoop k f).cfg = s.cfg ∧
    (s.setLoop k f).cap = s.cap ∧ (s.setLoop k f).bond = s.bond ∧ (s.setLoop k f).lanes = s.lanes ∧
    (s.setLoop k f).grout = s.grout ∧ (s.setLoop k f).engines = s.engines ∧ (s.setLoop k f).dram = s.dram ∧
    (s.setLoop k f).sec = s.sec ∧ (s.setLoop k f).gst = s.gst ∧ (s.setLoop k f).clk = s.clk ∧
    (s.setLoop k f).dbg = s.dbg ∧ (s.setLoop k f).evr = s.evr ∧ (s.setLoop k f).svp = s.svp ∧
    (s.setLoop k f).latches = s.latches ∧ (s.setLoop k f).time = s.time ∧ (s.setLoop k f).freeNo = s.freeNo ∧
    (s.setLoop k f).pending = s.pending :=
  ⟨rfl, rfl, rfl, rfl, rfl, rfl, rfl, rfl, rfl, rfl, rfl, rfl, rfl, rfl, rfl, rfl, rfl, rfl, rfl, rfl, rfl, rfl⟩

@[simp] theorem State.setKey_keeps (s : State) (slot : Nat) (k : List Byte) :
    (s.setKey slot k).part = s.part ∧ (s.setKey slot k).dev = s.dev ∧ (s.setKey slot k).intake = s.intake ∧
    (s.setKey slot k).fab = s.fab ∧ (s.setKey slot k).coping = s.coping ∧ (s.setKey slot k).cfg = s.cfg ∧
    (s.setKey slot k).cap = s.cap ∧ (s.setKey slot k).bond = s.bond ∧ (s.setKey slot k).lanes = s.lanes ∧
    (s.setKey slot k).grout = s.grout ∧ (s.setKey slot k).engines = s.engines ∧ (s.setKey slot k).dram = s.dram ∧
    (s.setKey slot k).gst = s.gst ∧ (s.setKey slot k).power = s.power ∧ (s.setKey slot k).clk = s.clk ∧
    (s.setKey slot k).dbg = s.dbg ∧ (s.setKey slot k).evr = s.evr ∧ (s.setKey slot k).svp = s.svp ∧
    (s.setKey slot k).latches = s.latches ∧ (s.setKey slot k).time = s.time ∧ (s.setKey slot k).freeNo = s.freeNo ∧
    (s.setKey slot k).pending = s.pending :=
  ⟨rfl, rfl, rfl, rfl, rfl, rfl, rfl, rfl, rfl, rfl, rfl, rfl, rfl, rfl, rfl, rfl, rfl, rfl, rfl, rfl, rfl, rfl⟩

@[simp] theorem State.stepFree_keeps (s : State)  :
    (s.stepFree).part = s.part ∧ (s.stepFree).dev = s.dev ∧ (s.stepFree).intake = s.intake ∧
    (s.stepFree).fab = s.fab ∧ (s.stepFree).coping = s.coping ∧ (s.stepFree).cfg = s.cfg ∧ (s.stepFree).cap = s.cap ∧
    (s.stepFree).bond = s.bond ∧ (s.stepFree).lanes = s.lanes ∧ (s.stepFree).grout = s.grout ∧
    (s.stepFree).engines = s.engines ∧ (s.stepFree).dram = s.dram ∧ (s.stepFree).sec = s.sec ∧
    (s.stepFree).gst = s.gst ∧ (s.stepFree).power = s.power ∧ (s.stepFree).clk = s.clk ∧ (s.stepFree).dbg = s.dbg ∧
    (s.stepFree).evr = s.evr ∧ (s.stepFree).svp = s.svp ∧ (s.stepFree).latches = s.latches ∧
    (s.stepFree).time = s.time ∧ (s.stepFree).pending = s.pending :=
  ⟨rfl, rfl, rfl, rfl, rfl, rfl, rfl, rfl, rfl, rfl, rfl, rfl, rfl, rfl, rfl, rfl, rfl, rfl, rfl, rfl, rfl, rfl⟩

@[simp] theorem State.passTo_keeps (s : State) (t : Nat) :
    (s.passTo t).part = s.part ∧ (s.passTo t).dev = s.dev ∧ (s.passTo t).intake = s.intake ∧
    (s.passTo t).fab = s.fab ∧ (s.passTo t).coping = s.coping ∧ (s.passTo t).cfg = s.cfg ∧ (s.passTo t).cap = s.cap ∧
    (s.passTo t).bond = s.bond ∧ (s.passTo t).lanes = s.lanes ∧ (s.passTo t).grout = s.grout ∧
    (s.passTo t).engines = s.engines ∧ (s.passTo t).dram = s.dram ∧ (s.passTo t).sec = s.sec ∧
    (s.passTo t).gst = s.gst ∧ (s.passTo t).power = s.power ∧ (s.passTo t).clk = s.clk ∧ (s.passTo t).dbg = s.dbg ∧
    (s.passTo t).evr = s.evr ∧ (s.passTo t).svp = s.svp ∧ (s.passTo t).latches = s.latches ∧
    (s.passTo t).freeNo = s.freeNo ∧ (s.passTo t).pending = s.pending :=
  ⟨rfl, rfl, rfl, rfl, rfl, rfl, rfl, rfl, rfl, rfl, rfl, rfl, rfl, rfl, rfl, rfl, rfl, rfl, rfl, rfl, rfl, rfl⟩

@[simp] theorem State.elapse_keeps (s : State) (n : Nat) :
    (s.elapse n).part = s.part ∧ (s.elapse n).dev = s.dev ∧ (s.elapse n).intake = s.intake ∧
    (s.elapse n).fab = s.fab ∧ (s.elapse n).coping = s.coping ∧ (s.elapse n).cfg = s.cfg ∧ (s.elapse n).cap = s.cap ∧
    (s.elapse n).bond = s.bond ∧ (s.elapse n).lanes = s.lanes ∧ (s.elapse n).grout = s.grout ∧
    (s.elapse n).engines = s.engines ∧ (s.elapse n).dram = s.dram ∧ (s.elapse n).sec = s.sec ∧
    (s.elapse n).gst = s.gst ∧ (s.elapse n).power = s.power ∧ (s.elapse n).clk = s.clk ∧ (s.elapse n).dbg = s.dbg ∧
    (s.elapse n).evr = s.evr ∧ (s.elapse n).svp = s.svp ∧ (s.elapse n).latches = s.latches ∧
    (s.elapse n).freeNo = s.freeNo ∧ (s.elapse n).pending = s.pending :=
  ⟨rfl, rfl, rfl, rfl, rfl, rfl, rfl, rfl, rfl, rfl, rfl, rfl, rfl, rfl, rfl, rfl, rfl, rfl, rfl, rfl, rfl, rfl⟩

@[simp] theorem logEvent_keeps (c : Nat) (xs : List Nat) (s : State) :
    (logEvent c xs s).part = s.part ∧ (logEvent c xs s).dev = s.dev ∧ (logEvent c xs s).intake = s.intake ∧
    (logEvent c xs s).fab = s.fab ∧ (logEvent c xs s).coping = s.coping ∧ (logEvent c xs s).cfg = s.cfg ∧
    (logEvent c xs s).cap = s.cap ∧ (logEvent c xs s).bond = s.bond ∧ (logEvent c xs s).lanes = s.lanes ∧
    (logEvent c xs s).grout = s.grout ∧ (logEvent c xs s).engines = s.engines ∧ (logEvent c xs s).dram = s.dram ∧
    (logEvent c xs s).sec = s.sec ∧ (logEvent c xs s).gst = s.gst ∧ (logEvent c xs s).power = s.power ∧
    (logEvent c xs s).clk = s.clk ∧ (logEvent c xs s).dbg = s.dbg ∧ (logEvent c xs s).svp = s.svp ∧
    (logEvent c xs s).latches = s.latches ∧ (logEvent c xs s).time = s.time ∧ (logEvent c xs s).freeNo = s.freeNo ∧
    (logEvent c xs s).pending = s.pending :=
  ⟨rfl, rfl, rfl, rfl, rfl, rfl, rfl, rfl, rfl, rfl, rfl, rfl, rfl, rfl, rfl, rfl, rfl, rfl, rfl, rfl, rfl, rfl⟩

/-! ### What its accessor reads -/

@[simp] theorem State.die_setDie_self (s : State) (i : Nat) (f : Die → Die) : (s.setDie i f).die i = f (s.die i) :=
  SMap.look_upd_self _ _ _ _

theorem State.die_setDie_ne (s : State) {i j : Nat} (f : Die → Die) (h : j ≠ i) : (s.setDie i f).die j = s.die j :=
  SMap.look_upd_ne _ _ _ h

theorem State.die_setDie (s : State) (i j : Nat) (f : Die → Die) : (s.setDie i f).die j = if j = i then f (s.die j) else s.die j :=
  SMap.look_upd _ _ _ _ _

@[simp] theorem State.unit_setUnit_self (s : State) (u : Nat) (f : GUnit → GUnit) : (s.setUnit u f).unit u = f (s.unit u) :=
  SMap.look_upd_self _ _ _ _

theorem State.unit_setUnit_ne (s : State) {u j : Nat} (f : GUnit → GUnit) (h : j ≠ u) : (s.setUnit u f).unit j = s.unit j :=
  SMap.look_upd_ne _ _ _ h

theorem State.unit_setUnit (s : State) (u j : Nat) (f : GUnit → GUnit) : (s.setUnit u f).unit j = if j = u then f (s.unit j) else s.unit j :=
  SMap.look_upd _ _ _ _ _

@[simp] theorem State.eng_setEng_self (s : State) (e : Nat) (f : Engine → Engine) : (s.setEng e f).eng e = f (s.eng e) :=
  SMap.look_upd_self _ _ _ _

theorem State.eng_setEng_ne (s : State) {e j : Nat} (f : Engine → Engine) (h : j ≠ e) : (s.setEng e f).eng j = s.eng j :=
  SMap.look_upd_ne _ _ _ h

theorem State.eng_setEng (s : State) (e j : Nat) (f : Engine → Engine) : (s.setEng e f).eng j = if j = e then f (s.eng j) else s.eng j :=
  SMap.look_upd _ _ _ _ _

@[simp] theorem State.cport_setCport_self (s : State) (p : Nat) (f : Port → Port) : (s.setCport p f).cport p = f (s.cport p) :=
  SMap.look_upd_self _ _ _ _

theorem State.cport_setCport_ne (s : State) {p j : Nat} (f : Port → Port) (h : j ≠ p) : (s.setCport p f).cport j = s.cport j :=
  SMap.look_upd_ne _ _ _ h

theorem State.cport_setCport (s : State) (p j : Nat) (f : Port → Port) : (s.setCport p f).cport j = if j = p then f (s.cport j) else s.cport j :=
  SMap.look_upd _ _ _ _ _

@[simp] theorem State.lane_setLane_self (s : State) (l : Nat) (f : Lane → Lane) : (s.setLane l f).lane l = f (s.lane l) :=
  SMap.look_upd_self _ _ _ _

theorem State.lane_setLane_ne (s : State) {l j : Nat} (f : Lane → Lane) (h : j ≠ l) : (s.setLane l f).lane j = s.lane j :=
  SMap.look_upd_ne _ _ _ h

theorem State.lane_setLane (s : State) (l j : Nat) (f : Lane → Lane) : (s.setLane l f).lane j = if j = l then f (s.lane j) else s.lane j :=
  SMap.look_upd _ _ _ _ _

@[simp] theorem State.pcie_setPcie_self (s : State) (c : Nat) (f : Pcie → Pcie) : (s.setPcie c f).pcie c = f (s.pcie c) :=
  SMap.look_upd_self _ _ _ _

theorem State.pcie_setPcie_ne (s : State) {c j : Nat} (f : Pcie → Pcie) (h : j ≠ c) : (s.setPcie c f).pcie j = s.pcie j :=
  SMap.look_upd_ne _ _ _ h

theorem State.pcie_setPcie (s : State) (c j : Nat) (f : Pcie → Pcie) : (s.setPcie c f).pcie j = if j = c then f (s.pcie j) else s.pcie j :=
  SMap.look_upd _ _ _ _ _

@[simp] theorem State.grp_setGrp_self (s : State) (g : Nat) (f : BondGroup → BondGroup) : (s.setGrp g f).grp g = f (s.grp g) :=
  SMap.look_upd_self _ _ _ _

theorem State.grp_setGrp_ne (s : State) {g j : Nat} (f : BondGroup → BondGroup) (h : j ≠ g) : (s.setGrp g f).grp j = s.grp j :=
  SMap.look_upd_ne _ _ _ h

theorem State.grp_setGrp (s : State) (g j : Nat) (f : BondGroup → BondGroup) : (s.setGrp g f).grp j = if j = g then f (s.grp j) else s.grp j :=
  SMap.look_upd _ _ _ _ _

@[simp] theorem State.port_setPort_self (s : State) (q : Nat) (f : FabPort → FabPort) : (s.setPort q f).port q = f (s.port q) :=
  SMap.look_upd_self _ _ _ _

theorem State.port_setPort_ne (s : State) {q j : Nat} (f : FabPort → FabPort) (h : j ≠ q) : (s.setPort q f).port j = s.port j :=
  SMap.look_upd_ne _ _ _ h

theorem State.port_setPort (s : State) (q j : Nat) (f : FabPort → FabPort) : (s.setPort q f).port j = if j = q then f (s.port j) else s.port j :=
  SMap.look_upd _ _ _ _ _

@[simp] theorem State.coll_setColl_self (s : State) (n : Nat) (f : Collector → Collector) : (s.setColl n f).coll n = f (s.coll n) :=
  SMap.look_upd_self _ _ _ _

theorem State.coll_setColl_ne (s : State) {n j : Nat} (f : Collector → Collector) (h : j ≠ n) : (s.setColl n f).coll j = s.coll j :=
  SMap.look_upd_ne _ _ _ h

theorem State.coll_setColl (s : State) (n j : Nat) (f : Collector → Collector) : (s.setColl n f).coll j = if j = n then f (s.coll j) else s.coll j :=
  SMap.look_upd _ _ _ _ _

@[simp] theorem State.trig_setTrig_self (s : State) (u : Nat) (f : Trigger → Trigger) : (s.setTrig u f).trig u = f (s.trig u) :=
  SMap.look_upd_self _ _ _ _

theorem State.trig_setTrig_ne (s : State) {u j : Nat} (f : Trigger → Trigger) (h : j ≠ u) : (s.setTrig u f).trig j = s.trig j :=
  SMap.look_upd_ne _ _ _ h

theorem State.trig_setTrig (s : State) (u j : Nat) (f : Trigger → Trigger) : (s.setTrig u f).trig j = if j = u then f (s.trig j) else s.trig j :=
  SMap.look_upd _ _ _ _ _

@[simp] theorem State.chan_setChan_self (s : State) (c : Nat) (f : Chan → Chan) : (s.setChan c f).chan c = f (s.chan c) :=
  SMap.look_upd_self _ _ _ _

theorem State.chan_setChan_ne (s : State) {c j : Nat} (f : Chan → Chan) (h : j ≠ c) : (s.setChan c f).chan j = s.chan j :=
  SMap.look_upd_ne _ _ _ h

theorem State.chan_setChan (s : State) (c j : Nat) (f : Chan → Chan) : (s.setChan c f).chan j = if j = c then f (s.chan j) else s.chan j :=
  SMap.look_upd _ _ _ _ _

@[simp] theorem State.loop_setLoop_self (s : State) (k : Nat) (f : LoopReg → LoopReg) : (s.setLoop k f).loop k = f (s.loop k) :=
  SMap.look_upd_self _ _ _ _

theorem State.loop_setLoop_ne (s : State) {k j : Nat} (f : LoopReg → LoopReg) (h : j ≠ k) : (s.setLoop k f).loop j = s.loop j :=
  SMap.look_upd_ne _ _ _ h

theorem State.loop_setLoop (s : State) (k j : Nat) (f : LoopReg → LoopReg) : (s.setLoop k f).loop j = if j = k then f (s.loop j) else s.loop j :=
  SMap.look_upd _ _ _ _ _

@[simp] theorem State.queue_setQueue_self (s : State) (p : Nat) (q : List DReq) : (s.setQueue p q).queue p = q :=
  SMap.look_put_self _ _ _ _

theorem State.queue_setQueue_ne (s : State) {p j : Nat} (q : List DReq) (h : j ≠ p) : (s.setQueue p q).queue j = s.queue j :=
  SMap.look_put_ne _ _ _ h

@[simp] theorem State.key_setKey_self (s : State) (k : Nat) (v : List Byte) : (s.setKey k v).key k = v :=
  SMap.look_put_self _ _ _ _

theorem State.key_setKey_ne (s : State) {k j : Nat} (v : List Byte) (h : j ≠ k) : (s.setKey k v).key j = s.key j :=
  SMap.look_put_ne _ _ _ h

@[simp] theorem State.space_setSpace_self (s : State) (p : Fin 8) (src : BitVec 16) (f : ReplySpace → ReplySpace) :
    (s.setSpace p src f).space p src = f (s.space p src) :=
  SMap.look_upd_self _ _ _ _

end Sys2Proof.Machine
end

