-- ==== Sys2Proof/Laws/Engine.lean ====
section
/-!
SUPPORT. What running an instruction of an engine does (11, 12): the shared operations `runEng`, `runFlow`, the result
shapes and the flags.
-/
namespace Sys2Proof.Machine
open Sys2Proof

theorem preIssue_of_issues {e : Nat} {s : State} (h : Issues e s) : preIssue e s = .ok () := by
  obtain ⟨h1, h2, h3, h4, h5⟩ := h
  simp only [preIssue, h1, h2, Bool.not_true, Bool.false_eq_true, if_false, ge_iff_le, Nat.not_le.2 h3, cmpAct, h4, h5]

/-- An engine that issues a register operation without an exception writes its result and moves on. -/
theorem runEng_ok {e : Fin 192} {s : State} {op : EngOp} {y : Engine} (h : Issues e s) (hop : op (s.eng e) = .ok y) :
    runEng e op s = s.setEng e fun _ => y.advance 4 := by
  simp only [runEng, preIssue_of_issues h, hop]

/-- An engine that issues an operation which raises an exception takes it, with nothing done. -/
theorem runEng_error {e : Fin 192} {s : State} {op : EngOp} {c : Nat} (h : Issues e s) (hop : op (s.eng e) = .error c) :
    runEng e op s = takeException e c 0 s := by
  simp only [runEng, preIssue_of_issues h, hop]

/-- A control-flow instruction without an exception. -/
theorem runFlow_ok {e : Fin 192} {s : State} {op : EngOp} {y : Engine} (h : Issues e s) (hop : op (s.eng e) = .ok y) :
    runFlow e op s = s.setEng e fun _ => y := by
  simp only [runFlow, preIssue_of_issues h, hop]

theorem runFlow_error {e : Fin 192} {s : State} {op : EngOp} {c : Nat} (h : Issues e s) (hop : op (s.eng e) = .error c) :
    runFlow e op s = takeException e c 0 s := by
  simp only [runFlow, preIssue_of_issues h, hop]

/-- A register operation without an exception completes in sequence. -/
theorem runsTo_of {i : Instr} {e : Fin 192} {s : State} {op : EngOp} {y : Engine} {P : Engine → Engine → Prop}
    (hi : exec i s = .next (runEng e op s)) (h : Issues e s) (hop : op (s.eng e) = .ok y) (hP : P (s.eng e) y) :
    RunsTo i e s P := ⟨y, by rw [hi, runEng_ok h hop], hP⟩

/-! ### Result shapes -/

theorem FlagsMove.refl (x : Engine) : FlagsMove x x noFlags := fun _ _ => rfl

theorem flagsMove_flag {x y : Engine} {r : FlagRule} {i : Nat} (hi : i < 5) (b p : Bool) (h : FlagsMove x y r) :
    FlagsMove x (y.flag i b p) (fun k => if k = i then some (b, p) else r k) := by
  intro k hk
  rw [Engine.flag_sr _ hi, Engine.flag_fp _ hi]
  by_cases hki : k = i
  · simp [hki]
  · simp only [hki, if_false]; exact h k hk

/-- A flag written after a g register. -/
theorem WritesG.flag {rd : Nat} {v : W32} {p : Bool} {r : FlagRule} {x y : Engine} (h : WritesG rd v p r x y) {i : Nat}
    (hi : i < 5) (b q : Bool) : WritesG rd v p (fun k => if k = i then some (b, q) else r k) x (y.flag i b q) :=
  ⟨h.1, h.2.1, flagsMove_flag hi b q h.2.2.1, h.2.2.2⟩

/-- A flag written after an accumulator. -/
theorem WritesAc.flag {ac : Nat} {v : BitVec 72} {p : Bool} {r : FlagRule} {x y : Engine} (h : WritesAc ac v p r x y)
    {i : Nat} (hi : i < 5) (b q : Bool) : WritesAc ac v p (fun k => if k = i then some (b, q) else r k) x (y.flag i b q) :=
  ⟨h.1, h.2.1, flagsMove_flag hi b q h.2.2.1, h.2.2.2⟩

theorem writesG_setG (x : Engine) (rd : Nat) (v : W32) (p : Bool) : WritesG rd v p noFlags x (x.setG rd v p) :=
  ⟨by simp, fun _ h => Engine.gr_setG_ne x v p h, FlagsMove.refl x, rfl⟩

theorem writesAc_setAc (x : Engine) (ac : Nat) (v : BitVec 72) (p : Bool) :
    WritesAc ac v p noFlags x (x.setAc ac v p) :=
  ⟨by simp, fun _ h => Engine.acr_setAc_ne x v p h, FlagsMove.refl x, rfl⟩

/-- The rule of a result shape, pointwise. -/
theorem WritesG.rule {rd : Nat} {v : W32} {p : Bool} {r r' : FlagRule} {x y : Engine} (h : WritesG rd v p r x y)
    (hr : ∀ k, k < 32 → r k = r' k) : WritesG rd v p r' x y :=
  ⟨h.1, h.2.1, fun k hk => by rw [h.2.2.1 k hk, hr k hk], h.2.2.2⟩

theorem WritesAc.rule {ac : Nat} {v : BitVec 72} {p : Bool} {r r' : FlagRule} {x y : Engine} (h : WritesAc ac v p r x y)
    (hr : ∀ k, k < 32 → r k = r' k) : WritesAc ac v p r' x y :=
  ⟨h.1, h.2.1, fun k hk => by rw [h.2.2.1 k hk, hr k hk], h.2.2.2⟩

/-- An ALU result: z and n follow it (R415). -/
theorem writesG_aluOut (x : Engine) (rd : Nat) (v : W32) (p : Bool) :
    WritesG rd v p (resultFlags v p noFlags) x (x.aluOut rd v p) :=
  (((writesG_setG x rd v p).flag (i := 0) (by omega) (v == 0) p).flag (i := 1) (by omega) v.msb p).rule fun k _ => by
    unfold resultFlags; by_cases h0 : k = 0 <;> by_cases h1 : k = 1 <;> simp_all

/-- A logical result: v is cleared (R415). -/
theorem writesG_logicOut (x : Engine) (rd : Nat) (v : W32) (p : Bool) :
    WritesG rd v p (resultFlags v p fun k => if k = 3 then some (false, p) else none) x (x.logicOut rd v p) :=
  ((writesG_aluOut x rd v p).flag (i := 3) (by omega) false p).rule fun k _ => by
    unfold resultFlags noFlags; by_cases h0 : k = 0 <;> by_cases h1 : k = 1 <;> by_cases h3 : k = 3 <;> simp_all

/-- A saturation noted: sat, sticky with its poison, and v (R415). -/
theorem WritesG.noteSat {rd : Nat} {v : W32} {p : Bool} {r : FlagRule} {x y : Engine} (h : WritesG rd v p r x y)
    (hr : r 4 = none) (q : Bool) :
    WritesG rd v p (fun k => if k = 3 then some (true, q) else if k = 4 then some (true, q || x.fp.getLsbD 4) else r k) x
      (y.noteSat q) := by
  have h4 : y.fp.getLsbD 4 = x.fp.getLsbD 4 := by
    have := h.2.2.1 4 (by omega); rw [hr] at this; exact (Prod.mk.inj this).2
  unfold Engine.noteSat
  rw [h4]
  exact (h.flag (i := 4) (by omega) true (q || x.fp.getLsbD 4)).flag (i := 3) (by omega) true q

theorem WritesAc.noteSat {ac : Nat} {v : BitVec 72} {p : Bool} {r : FlagRule} {x y : Engine} (h : WritesAc ac v p r x y)
    (hr : r 4 = none) (q : Bool) :
    WritesAc ac v p (fun k => if k = 3 then some (true, q) else if k = 4 then some (true, q || x.fp.getLsbD 4) else r k) x
      (y.noteSat q) := by
  have h4 : y.fp.getLsbD 4 = x.fp.getLsbD 4 := by
    have := h.2.2.1 4 (by omega); rw [hr] at this; exact (Prod.mk.inj this).2
  unfold Engine.noteSat
  rw [h4]
  exact (h.flag (i := 4) (by omega) true (q || x.fp.getLsbD 4)).flag (i := 3) (by omega) true q

end Sys2Proof.Machine
end

