-- ==== Sys2Proof/Laws/Frames.lean ====
section
/-!
SUPPORT. Configuration fields (03 R77, 06 R182): whatever order the device file gives the bits of a course, distinct bits
of fields have distinct places, so a course can be written that holds chosen fields, and it reads as written.
-/
namespace Sys2Proof.Machine
open Sys2Proof

/-! ### The order of the bits -/

theorem exchange_lt (p : Nat × Nat) {x : Nat} (h : x < 73728) : Config.exchange p x < 73728 := by
  unfold Config.exchange
  split
  · split
    · omega
    · split <;> omega
  · exact h

theorem exchange_exchange (p : Nat × Nat) (x : Nat) : Config.exchange p (Config.exchange p x) = x := by
  unfold Config.exchange
  by_cases h : p.1 < 73728 ∧ p.2 < 73728 ∧ p.1 / 9216 = p.2 / 9216
  · simp only [h, and_self, if_true]
    by_cases h1 : x = p.1
    · simp only [h1, if_true]; split <;> omega
    · by_cases h2 : x = p.2
      · simp [h2]
      · simp [h1, h2]
  · simp only [h, if_false]

/-- The place of the bit counted as number `x` in a course. -/
def placeOf (x : Nat) : Nat := Config.frameOrder.foldr Config.exchange x

theorem placeOf_lt {x : Nat} (h : x < 73728) : placeOf x < 73728 := by
  unfold placeOf
  induction Config.frameOrder with
  | nil => exact h
  | cons p ps ih => exact exchange_lt p ih

theorem placeOf_inj {x y : Nat} (h : placeOf x = placeOf y) : x = y := by
  unfold placeOf at h
  revert h
  induction Config.frameOrder with
  | nil => exact id
  | cons p ps ih =>
    intro h
    apply ih
    have := congrArg (Config.exchange p) h
    simpa only [List.foldr_cons, exchange_exchange] using this

/-! ### A course with chosen bits -/

/-- The key of the byte that holds place `y` of course (a, b) of brick `n`. -/
def courseKey (n a b y : Nat) : Nat := frameKey n (8 * (160 * b + a) + y / 9216) (y % 9216 / 8)

theorem courseKey_inj {n a b x y : Nat} (h : courseKey n a b x = courseKey n a b y) : x / 8 = y / 8 := by
  unfold courseKey frameKey at h
  omega

/-- Frames in which the bits counted as `bits` of one course are 1 and every other bit of it is 0. -/
def frames (n a b : Nat) : List Nat → SMap Byte
  | [] => []
  | x :: xs => SMap.upd 0 (frames n a b xs) (courseKey n a b (placeOf x)) fun v => setBit v (placeOf x % 8) true

theorem frames_bit (n a b : Nat) (bits : List Nat) (y : Nat) :
    (SMap.look 0 (frames n a b bits) (courseKey n a b y)).getLsbD (y % 8) = decide (y ∈ bits.map placeOf) := by
  induction bits with
  | nil => simp [frames]
  | cons x xs ih =>
    simp only [frames, List.map_cons, List.mem_cons]
    rw [SMap.look_upd]
    by_cases hk : courseKey n a b y = courseKey n a b (placeOf x)
    · rw [if_pos hk, getLsbD_setBit _ (Nat.mod_lt _ (by decide))]
      have hd := courseKey_inj hk
      by_cases hm : y % 8 = placeOf x % 8
      · have : y = placeOf x := by omega
        simp [this]
      · have : y ≠ placeOf x := fun he => hm (by rw [he])
        simp only [hm, if_false, this, false_or, ih]
    · have : y ≠ placeOf x := fun he => hk (by rw [he])
      rw [if_neg hk, ih]; simp [this]

/-- A field of such a course reads as written. -/
theorem courseField_frames {s : State} {n a b : Nat} {bits : List Nat} (hs : s.cfg.frameMem = frames n a b bits)
    (elem fld w : Nat) : s.courseField n a b elem fld w =
      bitsNat ((List.range w).map fun i => decide (Config.elemStart elem + Config.fieldStart elem fld + i ∈ bits)) := by
  unfold State.courseField State.cfgBit
  congr 1
  apply List.map_congr_left
  intro i _
  have hp : Config.fieldBit elem fld i = placeOf (Config.elemStart elem + Config.fieldStart elem fld + i) := rfl
  have hb := frames_bit n a b bits (Config.fieldBit elem fld i)
  simp only [courseKey] at hb
  rw [hs, hb, hp]
  congr 1
  apply propext
  simp only [List.mem_map]
  exact ⟨fun ⟨z, hz, he⟩ => placeOf_inj he ▸ hz, fun h => ⟨_, h, rfl⟩⟩

/-- With no frame written every field is 0. -/
theorem courseField_empty {s : State} (hs : s.cfg.frameMem = []) (n a b elem fld w : Nat) :
    s.courseField n a b elem fld w = 0 := by
  rw [courseField_frames (bits := []) hs]
  have hz : ∀ w, bitsNat (List.replicate w false) = 0 := by
    intro w
    induction w with
    | zero => rfl
    | succ w ih => simp [List.replicate_succ, bitsNat, ih]
  simpa using hz w

end Sys2Proof.Machine
end

