-- ==== Sys2Proof/Laws/Intake.lean ====
section
/-!
SUPPORT. The checks of a packet (02 T2.7): what each step says where its conditions hold.
-/
namespace Sys2Proof.Machine
open Sys2Proof

/-- The state that the checks see: the packet submitted and granted. -/
def checked (card : Card) (c : Cmd) (s : State) : State :=
  let p : Packet := { opcode := card.opcode, cmd := c }
  granted p (submitted p (expireHeld s))

/-- The requests that may be granted once a packet joins a port while none waits and no sequence is locked (R64). -/
theorem State.eligible_request {p : Packet} {s : State} (hl : s.intake.lock = none) (hr : ∀ q, (s.cport q).requests = []) (q : Nat) :
    (request p s).eligible q = if q = p.cmd.port.val then [p] else [] := by
  have h : (request p s).intake.lock = none := hl
  unfold State.eligible
  simp only [h, Option.isNone_none, Bool.true_or, List.filter_true]
  unfold request
  rw [State.cport_setCport]
  split <;> simp [hr]

/-- A packet that requests alone is granted (R64). -/
theorem State.wins_alone {p : Packet} {s : State} (hp : p.cmd.port ≠ 5 ∧ p.cmd.port ≠ 6) (hl : (takeRanks s).intake.lock = none)
    (hr : ∀ q, ((takeRanks s).cport q).requests = []) : s.wins p = true := by
  have he := State.eligible_request (p := p) hl hr
  have hf : (List.range 8).filter (fun q => !((request p (takeRanks s)).eligible q).isEmpty) = [p.cmd.port.val] := by
    have hq : ∀ q, (!((request p (takeRanks s)).eligible q).isEmpty) = decide (q = p.cmd.port.val) := by
      intro q; rw [he]; by_cases h : q = p.cmd.port.val <;> simp [h]
    have hn : ∀ n : Fin 8, (List.range 8).filter (fun q => decide (q = n.val)) = [n.val] := by decide
    simp only [hq, hn]
  have hc : (request p (takeRanks s)).chosenPort = some p.cmd.port.val := by
    unfold State.chosenPort
    simp only [hf, List.map_cons, List.map_nil, List.max?_singleton, List.filter_cons, beq_self_eq_true, if_true, List.filter_nil]
    unfold nextAfter
    by_cases h : p.cmd.port.val > (request p (takeRanks s)).intake.lastPort <;> simp [h]
  have h5 : p.cmd.port.val ≠ 5 := fun h => hp.1 (Fin.ext h)
  have h6 : p.cmd.port.val ≠ 6 := fun h => hp.2 (Fin.ext h)
  unfold State.wins State.chosen
  rw [hc, Option.bind_some]
  unfold State.chosenPacket
  simp [he, h5, h6]

/-- A trailer whose tag agrees and whose counter exceeds the stored one passes, and its counter is consumed (R47, R53). -/
theorem checkTrailer_signed {card : Card} {p : Packet} {s : State} {key : List Byte} (ht : p.cmd.trailer = true)
    (hk : s.trailerKey card p.cmd = key) (he : key.isEmpty = false)
    (hm : (Crypto.cmac key p.macInput).take 8 = p.cmd.mac) (hc : card.cls ≠ .maker)
    (hn : (SMap.look 0 s.intake.counters p.cmd.keySlot).toNat < (BitVec.ofNat 64 p.cmd.counter).toNat) :
    ∃ u, checkTrailer card p s = (.inr (some (BitVec.ofNat 64 p.cmd.counter, key)), u) ∧
      u = let t := s.setCport p.cmd.port.val fun x => { x with failRun := 0 }
        let counters := SMap.put 0 t.intake.counters p.cmd.keySlot (BitVec.ofNat 64 p.cmd.counter)
        { t with intake := { t.intake with counters } } := by
  refine ⟨_, ?_, rfl⟩
  unfold checkTrailer
  have hn' : ¬ (BitVec.ofNat 64 p.cmd.counter).toNat ≤
      (SMap.look 0 (s.setCport p.cmd.port.val fun x => { x with failRun := 0 }).intake.counters p.cmd.keySlot).toNat :=
    Nat.not_le.2 hn
  simp only [ht, hk, he, hm, hc, hn', Bool.not_true, Bool.false_eq_true, if_false, ne_eq, not_true_eq_false, decide_false,
    Bool.or_false]

/-- A trailer whose tag agrees under the maker's key passes; no counter is kept for it (R52). -/
theorem checkTrailer_maker {card : Card} {p : Packet} {s : State} {key : List Byte} (ht : p.cmd.trailer = true)
    (hk : s.trailerKey card p.cmd = key) (he : key.isEmpty = false)
    (hm : (Crypto.cmac key p.macInput).take 8 = p.cmd.mac) (hc : card.cls = .maker) :
    checkTrailer card p s = (.inr none, s.setCport p.cmd.port.val fun x => { x with failRun := 0 }) := by
  unfold checkTrailer
  simp [ht, hk, he, hm, hc]

/-- A packet that passes every check is admitted. -/
theorem admit_of_checks {card : Card} {c : Cmd} {s u : State} {auth : Auth}
    (hpre : (expireHeld s).admits { opcode := card.opcode, cmd := c } = true)
    (hperm : (sizeOk card c && flagsOk c && portPermits card c.port (checked card c s) && modePermits card c (checked card c s) &&
      !(((checked card c s).cport c.port.val).lockedOut && (card.critical || c.trailer))) = true)
    (hct : checkTrailer card { opcode := card.opcode, cmd := c } (checked card c s) = (.inr auth, u))
    (hend : c.lockEnd = false)
    (hcheck : ((commonState card c auth u).isNone && (card.param c u).isNone && !lacksLog card c auth u) = true) :
    admission card c s = some (auth, u) := by
  unfold checked at hperm hct
  unfold admission
  simp only [hpre, hperm, hct, hend, hcheck, if_true, Bool.false_and, Bool.false_eq_true, if_false]

end Sys2Proof.Machine
end

