-- ==== Sys2Proof/Tests/Slice0.lean ====
section
/-!
SUPPORT. Tests: reset, the queue and ill-formed commands, some results that the spec works out, and for each obligation
with hypotheses a theorem that shows operands and a state meeting them, clause by clause.
-/
namespace Sys2Proof.Tests
open Sys2Proof Sys2Proof.Machine
set_option Elab.async false

/-! ### The step, reset and well-formed commands -/

/-- A request that asks for nothing unusual. -/
def plainReq : GReq :=
  { src := { x := 4, y := 0, ep := 0 }, master := 0, op := .read, addr := 0x100, len := 255, tag := 0, byteEn := 0, data := []
    poison := 0, mgmt := false }

theorem witness_StepRunsFront :
    (Instr.nop 191).wf = true ∧ (Instr.registerWrite 2 0).wf = false ∧ State.reset.pending = [] := by
  decide +kernel

theorem witness_QueueIsServedInOrder :
    goesOn (step { State.reset with pending := [.roundStart, .aclSweep] }) = true := by decide +kernel

theorem witness_PartStaysAsMade : goesOn (step State.reset) = true := by decide +kernel

theorem test_empty_queue_idles : step State.reset = .next { State.reset with time := State.reset.time + 1 } := rfl

theorem test_ill_formed_is_refused :
    step { State.reset with pending := [.registerWrite 0x3F0000000002 0] } = .refused .illFormed := rfl

theorem test_no_row_has_bits : decodeTableWord 32 0x12345678 = none ∧ State.reset.withFetchWord 32 0 = State.reset := ⟨rfl, rfl⟩

/-- Each check of `Instr.wf` refuses a term that breaks it. -/
theorem test_wf_registers : (Instr.registerWrite 2 0).wf = false ∧ (Instr.registerPairLowRead 6).wf = false := by decide +kernel

theorem test_wf_requests :
    plainReq.ok = true ∧
    (∀ bad ∈ ([{ plainReq with len := 255, addr := 0x101 }, { plainReq with data := [1] }, { plainReq with op := .write, len := 3, data := [1] },
        { plainReq with src := { x := 36, y := 0, ep := 0 } }, { plainReq with src := { x := 0, y := 16, ep := 0 } },
        { plainReq with src := { x := 0, y := 0, ep := 4 } }] : List GReq),
      ∀ i ∈ ([.hubControlRequest bad, .copingWindowAccess bad, .engineWindowAccess bad, .dramPortRequest 0 bad, .guestRequest bad,
          .groutRequest bad, .groutResponse { req := bad, status := 0, data := [], poison := 0 }, .hostWindowRequest bad none,
          .hostWindowTimeout bad, .tunnelRequestArrived 0 0 bad,
          .tunnelResponseArrived 0 { req := bad, status := 0, data := [], poison := 0 }, .tunnelTimeout 0 bad] : List Instr),
        i.wf = false) := by
  decide +kernel

theorem test_wf_other_operands :
    (Instr.bar4Request 0 .read 0xFF 1 0 0 [] false).wf = false ∧ (Instr.bar4Request 0 .write 0 1 0 0 [1] false).wf = false ∧
    (Instr.iqRequest 0 .read 0xFF 1 0 0 [] 0).wf = false ∧ (Instr.iqRequest 0 .write 0 1 0 0 [1] 0).wf = false ∧
    (Instr.deadTarget { x := 36, y := 0, ep := 0 } false).wf = false ∧ (Instr.samplePreload [(5408, true)]).wf = false ∧
    (Instr.samplePreload [(5407, true)]).wf = true ∧ (Instr.throttleSample [(400, 0)]).wf = false ∧
    (Instr.adaptiveLoopStep (.island 17) true).wf = false ∧ (Instr.adaptiveLoopStep (.dram 0 8) true).wf = false := by
  decide +kernel

/-! ### Results that the spec works out -/

/-- 09: the CRC-16 of the nine ASCII bytes 1 to 9. -/
theorem test_crc16_of_digits : Crypto.crc16 ((List.range 9).map fun i => BitVec.ofNat 8 (0x31 + i)) = 0x29B1 := by decide +kernel

/-- 10: E037 is at (0, 3) with ep 1, and port 26 of B1 at (14, 3); 11: the address of E189's U memory. -/
theorem test_grout_places :
    engineEp 37 = { x := 0, y := 3, ep := 1 } ∧ portEp (64 + 26) = { x := 14, y := 3, ep := 0 } ∧
    State.reset.decode 0x30000BD00100 = .inr { ep := engineEp 189, target := some 10 } := by
  decide +kernel

/-- 10: the slots of a flow with first-link slots 5 and 21, on link 0, link 13 and at its ejection after 14 hops. -/
theorem test_flow_slots :
    let f : Flow := { id := 1, network := false, src := engineEp 37, dst := portEp 90, slots := 0x00200020, active := true
                      removing := false, outstanding := 0 }
    f.slotsAt 0 = [5, 21] ∧ f.slotsAt 13 = [18, 2] ∧ f.slotsAt 14 = [19, 3] := by
  decide +kernel

/-- 08: K_min is 15, P_min 181 ns and, with K 16 and one hop, D 18 for t_link 110 ns, rate 2, 4,096 wires each way and t_s 20, t_r 30. -/
theorem test_beat_budget : kMin 110 10 8 2 64 = 15 ∧ pMin 110 8 2 64 20 30 = 181 ∧ stopDistance 1 16 = 18 := by decide +kernel

/-- 13: a region of 64 GiB has counter levels of 2^27, …, 2^6 and 8 lines, and 18,407,006,208 bytes of metadata. -/
theorem test_region_metadata :
    levelsOf (64 * 2 ^ 30) = [2 ^ 27, 2 ^ 24, 2 ^ 21, 2 ^ 18, 2 ^ 15, 2 ^ 12, 2 ^ 9, 2 ^ 6, 8] ∧
    metaLenOf (64 * 2 ^ 30) = 18407006208 := by
  decide +kernel

/-- 07: the sections of a light checkpoint of B0 to B3, and its total length. -/
theorem test_checkpoint_sections :
    let ps := placeSections 800 (List.replicate 4 1638400 ++ List.replicate 3 10240 ++ [6147200, 2460800])
    ps.map (·.1) = [4096, 1642496, 3280896, 4919296, 6557696, 6569984, 6582272, 6594560, 12742656] ∧
    totalLength 800 ps = 15203456 := by
  decide +kernel

/-- 12: rev12 of 2,048 is 1. -/
theorem test_bit_reversal : revBits 12 2048 = 1 ∧ revBits 12 1024 = 2 := by decide +kernel

/-! ### Engine instructions (11, 12) -/

/-- Engine 3 runs, otherwise as after reset. -/
def running (f : Engine → Engine) : State := State.reset.setEng 3 fun x => f { x with state := .running }

theorem witness_EngineLogicShiftsAndSums :
    Issues 3 (running fun x => x.setG 1 0x80000000 false) ∧
    ((0x0045 : BitVec 16) &&& 0xFF20 = 0 ∧ (0x0045 : BitVec 16).toNat / 64 = 1) ∧
    ((0x009F : BitVec 16) &&& 0xFF20 = 0 ∧ (0x009F : BitVec 16).toNat / 64 = 2) := by
  unfold Issues; decide +kernel

theorem witness_EngineComparesProductsAndCounts : Issues 3 (running id) ∧ (30 : Fin 32).val % 2 = 0 := by
  unfold Issues; decide +kernel

theorem witness_EngineLaneArithmetic :
    Issues 3 (running fun x => { x with sr := 0x70000000 }) ∧ (30 : Fin 32).val % 2 = 0 := by
  unfold Issues; decide +kernel

theorem witness_EngineMoves :
    let s := running fun x => { x with l := [(2, 64)] }
    Issues 3 s ∧ ((s.eng 3).pr 2).p = false ∧ SMap.look 0 (s.eng 3).l 2 ≠ 0 ∧ SMap.look 0 (s.eng 3).l 1 = 0 ∧
    (s.eng 3).sr.getLsbD (8 + 2) = false ∧ ((s.eng 3).gr 5).p = false ∧ (4 : Fin 32) ≠ 2 ∧ (4 : Fin 32) ≠ 3 := by
  unfold Issues; decide +kernel

theorem witness_EngineAccumulatorProducts :
    Issues 3 (running id) ∧ (2 : Fin 4).val % 2 = 0 ∧ (0 : Fin 32).val % 2 = 0 := by
  unfold Issues; decide +kernel

theorem witness_EngineAccumulators : Issues 3 (running id) ∧ (30 : Fin 32).val % 2 = 0 ∧ (2 : Fin 4).val % 2 = 0 := by
  unfold Issues; decide +kernel

/-- Two loop levels, 0 and 1, end at pc 0x10. -/
def looping (n : W32) : State := running fun x =>
  { x with pc := 0x10, lpact := 3, le := [(0, 0x10), (1, 0x10)], ls := [(0, 4), (1, 8)], lc := [(0, n), (1, 1)] }

theorem witness_EngineSequenceAndWaits :
    (Issues 3 (looping 1) ∧ ∀ k, k < 4 →
      (((looping 1).eng 3).lpact.getLsbD k = true ∧ SMap.look 0 ((looping 1).eng 3).le k = ((looping 1).eng 3).pc) →
        (SMap.look 0 ((looping 1).eng 3).lc k).toNat ≤ 1) ∧
    (Issues 3 (looping 5) ∧ (((looping 5).eng 3).lpact.getLsbD 0 = true ∧
      SMap.look 0 ((looping 5).eng 3).le 0 = ((looping 5).eng 3).pc) ∧ 1 < (SMap.look 0 ((looping 5).eng 3).lc 0).toNat ∧
      ∀ j, j < 4 → 0 < j → (SMap.look 0 ((looping 5).eng 3).lc j).toNat ≤ 1) ∧
    (ComputeWord.op { major := 0, rd := 1, ra := 2, rb := 3, func := 0, imm := 0, acd := 0, acs := 0, sh := 0 }
      ((looping 5).eng 3)).toOption.isSome = true ∧
    ((running fun x => { x with steps := 1 }).eng 3).steps ≠ 0 ∧ ((running id).eng 3).sb = [] ∧
    ((running fun x => { x with dma := { x.dma with busy := true } }).eng 3).dma.busy = true ∧
    (({ isGlobal := true, addr := 0, size := 4, data := 0, poison := false, sent := false } : SbEntry).isGlobal = true) := by
  unfold Issues; decide +kernel

theorem witness_EngineControlFlow :
    Issues 3 (running id) ∧ ((running id).eng 3).fp.getLsbD 1 = false ∧
    ((running fun x => { x with fp := 2 }).eng 3).fp.getLsbD 1 = true ∧
    (((running id).eng 3).gr 4).p = false ∧ (((running fun x => x.setG 4 0x40 true).eng 3).gr 4).p = true ∧
    (7 : BitVec 8) ≠ 0 ∧ (((running fun x => x.setG 4 9 false).eng 3).gr 4).v ≠ 0 := by
  unfold Issues; decide +kernel

/-- A 4-byte access through pointer 2, post-modified by 8, at 0x100. -/
def form : MemForm := { ptr := 2, am := 1, size := 2, sx := false, disp := 8 }

def access (store : Bool) (addr : W32) : Access :=
  { addr, size := 4, reg := 5, sx := false, store, ptr := some (2, addr + 8) }

/-- Engine 3 with pointer 2 at an address and segment 0 on the global block 0x20. -/
def pointing (a : W32) : State := running fun x => { x.setP 2 a false with seg := [(0, 0x80000020)] }

theorem witness_EngineAddressing :
    Issues 3 (pointing 0x102) ∧ form.am ≠ 3 ∧ form.am ≠ 2 ∧ 2 ^ form.size.val ≠ 8 ∧
    (((pointing 0x102).eng 3).pr 2).p = false ∧ ((running fun x => x.setP 2 0x100 true).eng 3 |>.pr 2).p = true ∧
    (0x102 : W32).toNat % 4 ≠ 0 ∧ ((pointing 0x70000).eng 3).place 3 0x70000 = none ∧
    SMap.look 0 ((pointing 0x102).eng 3).l 2 = 0 := by
  unfold Issues; decide +kernel

theorem witness_EngineLocalAccesses :
    (Issues 3 (pointing 0x100) ∧ ((pointing 0x100).eng 3).cmps = [] ∧
      ((pointing 0x100).eng 3).place 3 0x100 = some (.mem 0x100) ∧ (0x100 : W32).toNat % 4 = 0 ∧
      overlapEntry ((pointing 0x100).eng 3).sb false 0x100 4 = none ∧ CleanAt ((pointing 0x100).eng 3) 0x100 4) ∧
    (overlapEntry [{ isGlobal := false, addr := 0x100, size := 4, data := 7, poison := true, sent := false }] false 0x100 4 =
      some { isGlobal := false, addr := 0x100, size := 4, data := 7, poison := true, sent := false }) ∧
    ((pointing 0x100).eng 3).sb.length < 8 ∧
    ((pointing 0x80000100).eng 3).place 3 0x80000100 = some (.glob 0x200000100) ∧
    ((pointing 0x100).eng 3).stopAsked = none ∧ ((pointing 0x100).eng 3).state ≠ .stopped ∧
    (pointing 0x100).power.mode ≠ .hold := by
  unfold Issues CleanAt; decide +kernel

theorem witness_EngineLocalAccesses_form :
    MemForm.access ((pointing 0x100).eng 3) false 5 form = .ok (access false 0x100) ∧
    MemForm.access ((pointing 0x100).eng 3) true 5 form = .ok (access true 0x100) := by
  constructor <;> rfl

/-- Engine 3 waits for the global load at 0x2_0000_0100. -/
def awaitingLoad : State := (pointing 0x80000100).setEng 3 fun x =>
  { x with gload := some { instr := .ld 5 form, addr := BitVec.ofNat 48 0x200000100, more := [], got := [] } }

/-- A store of engine 3 has been sent. -/
def sentStore : State := running fun x =>
  { x with sb := [{ isGlobal := true, addr := 0x200000100, size := 4, data := 7, poison := false, sent := true }] }

def slot (ptr : Fin 8) (reg : Fin 32) : Slot := { en := true, store := false, reg, ptr, useMod := false }

theorem witness_EngineGlobalAndPairedAccesses :
    (Issues 3 (pointing 0x80000100) ∧ overlapEntry ((pointing 0x80000100).eng 3).sb true 0x200000100 4 = none) ∧
    ((awaitingLoad.eng 3).gload = some
        { instr := .ld 5 form, addr := BitVec.ofNat 48 0x200000100, more := [], got := [] } ∧
      (awaitingLoad.eng 3).stopAsked = none ∧ (awaitingLoad.eng 3).state = .running ∧ awaitingLoad.power.mode ≠ .hold ∧
      (awaitingLoad.eng 3).cmps = [] ∧ (awaitingLoad.eng 3).place 3 0x80000100 = some (.glob 0x200000100) ∧
      overlapEntry (awaitingLoad.eng 3).sb true 0x200000100 4 = none) ∧
    ((sentStore.eng 3).sb ≠ [] ∧ (∀ b ∈ (sentStore.eng 3).sb, b.sent = true) ∧ (sentStore.eng 3).storeErr = false ∧
      ((sentStore.setEng 3 fun x => { x with storeErr := true }).eng 3).storeErr = true) ∧
    (let x := (running fun x => (x.setP 1 0x100 false).setP 2 0x200 false).eng 3;
      ∀ t ∈ [slot 1 4, slot 2 6], t.en = true ∧ t.store = false ∧ t.reg.val % 2 = 0 ∧ (x.pr t.ptr).p = false ∧
        SMap.look 0 x.l t.ptr = 0 ∧ (x.pr t.ptr).v.toNat % 4 = 0 ∧ (x.pr t.ptr).v.toNat < 0x60000 ∧
        CleanAt x (x.pr t.ptr).v.toNat 4) := by
  unfold Issues CleanAt; decide +kernel

theorem witness_EngineGlobalAndPairedAccesses_form :
    MemForm.access ((pointing 0x80000100).eng 3) false 5 form = .ok (access false 0x80000100) ∧
    MemForm.access (awaitingLoad.eng 3) false 5 form = .ok (access false 0x80000100) := by
  constructor <;> rfl

/-- A comparator on fetches of address 0, with its action. -/
def comparing (act : Nat) : State := running fun x => { x with cmps := [(0, { ctl := BitVec.ofNat 32 act })] }

theorem witness_EngineFetchFaults :
    engineOf (.nop 3) = some 3 ∧
    (let s := running fun x => { x with pc := 0x20000 };
      s.executes 3 = true ∧ (s.eng 3).storeErr = false ∧ 0x1FFFF < (s.eng 3).pc.toNat) ∧
    (let s := running fun x => { x with storeErr := true, storeErrStatus := 5 };
      s.executes 3 = true ∧ (s.eng 3).storeErr = true) ∧
    State.reset.executes 3 = false := by
  decide +kernel

theorem witness_EngineIsolation :
    engineOf (.st 3 5 form) = some 3 ∧ goesOn (exec (.st 3 5 form) (pointing 0x100)) = true := by
  decide +kernel

theorem witness_EngineExceptionsAndEvents :
    (let s := running fun x => { x with faultVec := true };
      s.executes 3 = true ∧ (s.eng 3).faultVec = true ∧ (s.eng 3).excActive = false) ∧
    (let s := running id;
      s.executes 3 = true ∧ (s.eng 3).faultVec = false ∧ (s.eng 3).sb = []) ∧
    (let x := (running fun x => { x with gie := true, ie := 0xC, ip := 0xE }).eng 3;
      x.gie = true ∧ x.excActive = false ∧ x.stepNoInt = false ∧ (x.ie &&& x.ip).getLsbD 2 = true ∧
        (∀ j, j < 2 → (x.ie &&& x.ip).getLsbD j = false)) ∧
    ((running fun x => { x with storeErr := true, faultVec := true }).eng 3).storeErr = true ∧
    (let x := (running fun x => { x with timerCtl := 0xC0000000, timerCmp := 20 }).eng 3;
      x.timerCtl.getLsbD 31 = true ∧ x.holdStopped = false ∧ x.state ≠ .halted ∧
        (let cyc := (x.timerCtl.toNat % 2 ^ 16 + 1) * max 1 x.clkDiv.toNat;
          x.prescale < cyc ∧ x.timer.toNat < x.timerCmp.toNat ∧ ((x.timerCmp.toNat - x.timer.toNat) * cyc - x.prescale) % 20 = 0 ∧
            State.reset.time ≤ x.timerAt + ((x.timerCmp.toNat - x.timer.toNat) * cyc - x.prescale + 19) / 20)) ∧
    (let s : State := { running (fun x => { x with mbReqLen := 16, mbReqAddr := 0x100 }) with intake.opened := true };
      (s.space 5 3).reqBusy = false ∧ s.intake.opened = true ∧ 16 ≤ (s.eng 3).mbReqLen.toNat ∧
        (s.eng 3).mbReqLen.toNat ≤ 65568 ∧ CleanAt (s.eng 3) (s.eng 3).mbReqAddr.toNat (s.eng 3).mbReqLen.toNat ∧
        (s.space 5 3).retryUntil ≤ s.time) ∧
    ((State.reset.setSpace 5 3 fun sp => { sp with reqBusy := true }).space 5 3).reqBusy = true := by
  unfold CleanAt; decide +kernel

/-- The setting of the last channel transfer that stays in V memory. -/
def dmaReady : State := running fun x => { x with dmaLocal := 0x3FF00, dmaLen := 0x100, dmaGlobal := 0x2000000F0 }

/-- The channel of engine 3 moves. -/
def dmaMoving : State := dmaReady.setEng 3 fun x => { x with dma := { x.dma with busy := true, remaining := 0x100 } }

theorem witness_EngineDmaAndWindow :
    (let x := dmaReady.eng 3;
      x.sb = [] ∧ x.dma.busy = false ∧ 4 ≤ x.dmaLen.toNat ∧ x.dmaLen.toNat ≤ 131072 ∧ x.dmaLen.toNat % 4 = 0 ∧
        x.dmaLocal.toNat % 4 = 0 ∧ x.dmaGlobal.toNat % 4 = 0 ∧ x.dmaLocal.toNat < 0x60000 ∧
        x.dmaLocal.toNat / 0x20000 = (x.dmaLocal.toNat + x.dmaLen.toNat - 1) / 0x20000) ∧
    ((running id).eng 3).dmaLen.toNat < 4 ∧
    (let x := dmaMoving.eng 3;
      x.dma.busy = true ∧ x.dma.aborting = none ∧ x.holdStopped = false ∧ x.dma.held = none ∧ x.dmaDir = false ∧
        x.state ≠ .stopped ∧ min x.dma.remaining.toNat (256 - (x.dmaGlobal.toNat + x.dma.moved) % 256) = 16 ∧
        16 < x.dma.remaining.toNat ∧ (List.replicate 16 (1 : Byte)).length = 16) ∧
    (let r : GReq := { src := { x := 1, y := 1, ep := 0 }, master := 0, op := .read, addr := 0x3000003F0014, len := 3, tag := 0,
                       byteEn := 0, data := [], poison := 0, mgmt := false };
      r.ok = true ∧ r.addr.toNat / 2 ^ 20 % 2 ^ 8 = 3 ∧ r.addr.toNat % 2 ^ 20 = 0xF0014 ∧
        ({ r with addr := 0x30000035FFFC } : GReq).ok = true ∧ (0x30000035FFFC : Nat) % 2 ^ 20 + 4 ≤ 0x60000 ∧
        CleanAt ((running id).eng 3) 0x5FFFC 4 ∧ 0x60000 ≤ (0x3000003EFFFC : Nat) % 2 ^ 20 ∧
        ({ r with op := .write, data := [1, 2, 3, 4] } : GReq).ok = true) := by
  unfold CleanAt; decide +kernel

theorem witness_EngineHaltsAndStops :
    (let s := running fun x => { x with haltAsked := some 1 };
      (s.eng 3).haltAsked = some 1 ∧ (s.eng 3).state = .running ∧ (s.eng 3).gload = none ∧ (s.eng 3).sb = [] ∧
        s.intake.table = [] ∧ s.dbg.freeze = 0 ∧ s.dbg.lanesFrozen = false) ∧
    (let s : State := { running (fun x => { x with haltAsked := some 1 }) with dbg.xhalt := 0x18 };
      s.dbg.xhalt.getLsbD 3 = true ∧ (s.eng 3).haltAsked = some 1) ∧
    (let s := running fun x => { x with stopAsked := some false };
      (s.eng 3).stopAsked.isSome = true ∧ s.power.mode ≠ .hold) := by
  decide +kernel

/-- Comparators on a fetch at the pc: [1] halts, [0] breaks. -/
theorem witness_EngineFetchFaults_comparators :
    (let s := comparing 0x80000002;
      s.executes 3 = true ∧ (s.eng 3).storeErr = false ∧ (s.eng 3).pc.toNat ≤ 0x1FFFF ∧
        ((s.eng 3).cmpHits [0] (s.eng 3).pc).getLsbD 1 = true ∧ s.secAxis ≠ .quarantine) ∧
    (let x := (comparing 0x80000001).eng 3;
      (x.cmpHits [0] x.pc).getLsbD 0 = true ∧ (x.cmpHits [0] x.pc).getLsbD 1 = false) := by
  decide +kernel

/-! ### The command intake (02) -/

/-- A packet on port 0 with tag 9 and these parameters. -/
def cmd (l : List Nat) : Cmd :=
  { port := 0, source := 0, tag := 9, paramLength := BitVec.ofNat 32 l.length, flags := 0, body := l.map (BitVec.ofNat 8) }

/-- The steps 1 to 8 of the checks pass. -/
def admits (card : Card) (c : Cmd) (s : State) : Bool := (admission card c s).isSome

/-- After reset, the intake open. -/
def opened : State := { State.reset with intake.opened := true }

def entry (done notify : Bool) (work : Work) : Completion :=
  { port := 0, source := 0, tag := 9, opcode := 0x0210, notify, auth := none, done, status := 0, progress := 100, data := []
    doneAt := 0, work }

theorem witness_CommandChecks_turned_away :
    commandOf (.devIdent (cmd [])) = some (cardDevIdent, cmd []) ∧
    (expireHeld State.reset).intake.opened = false ∧
    ((opened.setSpace 0 0 fun x => { x with retryUntil := 5 }).space 0 0).retryUntil > opened.time ∧
    ((expireHeld opened).intake.opened = true ∧ (expireHeld opened).sourceExists 0 0 = true ∧
      ((expireHeld opened).space 0 0).reqBusy = false ∧ ((expireHeld opened).space 0 0).retryUntil ≤ (expireHeld opened).time ∧
      (expireHeld opened).intakeFree (cmd []) = true ∧
      (request { opcode := 0x0100, cmd := cmd [] } (takeRanks opened)).chosen = some { opcode := 0x0100, cmd := cmd [] }) ∧
    (let p : Packet := { opcode := 0x0100, cmd := cmd [] };
      let s := opened.setCport 4 fun x => { x with requests := [{ p with cmd.port := 4 }] };
      let ranks := { s with intake.rankActive := 0x70000 };
      (request p (takeRanks ranks)).chosen ≠ some p) :=
  ⟨rfl, by decide +kernel⟩

theorem witness_CommandChecks_refused :
    sizeOk cardDevIdent (cmd [0]) = false ∧
    (sizeOk cardDevIdent { cmd [] with flags := 1 } = true ∧ flagsOk { cmd [] with flags := 1 } = false) ∧
    (sizeOk cardPwrReset { cmd [] with port := 7 } = true ∧ flagsOk { cmd [] with port := 7 } = true ∧
      portPermits cardPwrReset 7 (checked cardPwrReset { cmd [] with port := 7 } opened) = false) ∧
    (let s := opened.setCport 0 fun x => { x with lockedOut := true };
      portPermits cardPwrReset 0 (checked cardPwrReset (cmd []) s) = true ∧
        modePermits cardPwrReset (cmd []) (checked cardPwrReset (cmd []) s) = true ∧
        ((checked cardPwrReset (cmd []) s).cport 0).lockedOut = true ∧ cardPwrReset.critical = true) ∧
    (let s : State := { opened with sec.stored := .opened };
      ((checked cardPwrReset (cmd []) s).cport 0).lockedOut = false ∧ (cmd []).trailer = false ∧
        (checked cardPwrReset (cmd []) s).secAxis ≠ .blank) ∧
    (let s : State := { opened with intake.table := [entry false false .other] };
      sizeOk cardCmdPoll (cmd [9, 0, 0, 0]) = true ∧ cardCmdPoll.critical = false ∧ (cmd [9, 0, 0, 0]).lockEnd = false ∧
        (commonState cardCmdPoll (cmd [9, 0, 0, 0]) none (checked cardCmdPoll (cmd [9, 0, 0, 0]) s)).isSome = true) ∧
    admits cardCmdCounterRead (cmd []) opened = true := by
  decide +kernel

/-- What the tag of CMD_COUNTER_READ with tag 9 and counter 7 is computed over. -/
def macText : List Byte := leBytes 2 0x0111 ++ leBytes 2 9 ++ leBytes 4 0 ++ leBytes 2 2 ++ List.replicate 6 0 ++ leBytes 8 7

/-- CMD_COUNTER_READ with a trailer under key K0. -/
def signed : Cmd :=
  { cmd [] with flags := 2, body := leBytes 8 7 ++ (Crypto.cmac (List.replicate 32 0x42) macText).take 8 }

/-- Key K0 is stored and the part Open. -/
def keyed : State :=
  { opened with sec.stored := .opened, sec.keys := [(0, List.replicate 32 0x42)] }

theorem witness_OnlyPermittedCommandsExecute_signed :
    commandOf (.cmdCounterRead signed) = some (cardCmdCounterRead, signed) ∧ signed.trailer = true ∧
    ∃ u, admission cardCmdCounterRead signed keyed = some (some (7, List.replicate 32 0x42), u) := by
  obtain ⟨u, hu, hv⟩ := checkTrailer_signed (card := cardCmdCounterRead)
    (p := { opcode := cardCmdCounterRead.opcode, cmd := signed }) (s := checked cardCmdCounterRead signed keyed)
    (key := List.replicate 32 0x42) rfl rfl rfl rfl (by decide) (by decide +kernel)
  exact ⟨rfl, by decide +kernel, u,
    admit_of_checks (by decide +kernel) (by decide +kernel) hu rfl (by subst hv; decide +kernel)⟩

theorem witness_OnlyPermittedCommandsExecute :
    (let s : State := { keyed with sec.latch := true };
      s.secAxis = .quarantine ∧ admits cardDevIdent (cmd []) s = true) ∧
    (let s : State := { keyed with evr.returnState := true };
      admits cardDevInventory (cmd []) s = true) ∧
    admits cardCmdCounterRead { cmd [] with port := 5, source := 191 } opened = true ∧
    (let s : State := ({ opened with part.guestVariant := true, dev.role := true } : State).setDie 25 fun d => { d with state := .running };
      admits cardDevIdent { cmd [] with port := 7 } s = true) ∧
    (let s : State := { opened with intake.lock := some { port := 0, source := 0, opcode := 0x0111, start := 0 } };
      admits cardCmdCounterRead (cmd []) s = true) := by
  decide +kernel

def reply : Reply :=
  { tag := 9, status := 0, opcode := 0x0111, data := [], notification := false, logRo := false, trailer := none }

theorem witness_RepliesAndAnswers :
    (cmd []).port.val < 4 ∧ (opened.space 0 0).current = none ∧
    ((opened.setSpace 0 0 fun sp => { sp with current := some reply }).space 0 0).current = some reply ∧
    (srcKey 5 191 ≠ srcKey (cmd []).port (cmd []).source) ∧
    (({ cmd [] with flags := 0x20 } : Cmd).lockBegin = true ∧ (cmd []).lockBegin = false) ∧
    (∀ e, opened.entry 0 0 9 = some e → e.done = false) ∧ Status.accepted ≠ Status.ok := by
  decide +kernel

def asking (port : Fin 8) (opcode : BitVec 16) : Packet := { opcode, cmd := { cmd [] with port } }

theorem witness_Arbitration :
    (opened.intake.opened = true ∧ opened.intake.busy = none ∧ opened.intake.lock = none ∧ opened.power.holdDue = none) ∧
    (∀ p, p < 8 → (opened.cport p).requests = []) ∧
    (let s := (opened.setCport 2 fun x => { x with requests := [asking 2 0x0FFF] }).setCport 0
        fun x => { x with requests := [asking 0 0x0FFF] };
      (s.cport 2).requests = [asking 2 0x0FFF] ∧ (s.cport 0).requests = [asking 0 0x0FFF] ∧
        (∀ k, k < 8 → k ≠ 2 → k ≠ 0 → (s.cport k).requests = []) ∧
        (asking 2 0x0FFF).cmd.port = 2 ∧ (asking 0 0x0FFF).cmd.port = 0 ∧ (2 : Fin 8).val < 4 ∧ (s.cport 0).lastLoss ≠ s.time + 1 ∧
        (let ranks := s.intake.rankPending.getD s.intake.rankActive;
          ranks.toNat / 2 ^ (4 * 0) % 8 < ranks.toNat / 2 ^ (4 * 2) % 8)) ∧
    (let s := opened.setCport 1 fun x => { x with requests := [asking 1 0x0FFF] };
      (s.cport 1).requests = [asking 1 0x0FFF] ∧ (∀ k, k < 8 → k ≠ 1 → (s.cport k).requests = [])) := by
  decide +kernel

theorem witness_Arbitration_unknown_opcode : cardOf 0x0FFF = none := rfl

theorem witness_PortEvents :
    opened.intake.opened = true ∧ (191 : BitVec 16).toNat < 192 ∧ (List.replicate 15 (0 : Byte)).length < 16 ∧
    (opened.space 5 191).reqBusy = false ∧ (opened.space 5 191).retryUntil ≤ opened.time ∧
    ((opened.cport 2).partialBytes ++ List.replicate 15 (0 : Byte)).length < 16 ∧
    ((opened.setCport 4 fun x => { x with partialBytes := [1] }).cport 4).partialBytes ≠ [] ∧
    (1 : W32).getLsbD 0 = true ∧
    (let s : State := { opened with intake.mbExtent := [(1, 16)] };
      16 ≤ SMap.look 0 s.intake.mbExtent 1 ∧ (s.space 1 0).reqBusy = false ∧ (s.space 1 0).retryUntil ≤ s.time) ∧
    (let s := opened.setSpace 1 0 fun sp => { sp with current := some reply };
      (s.space 1 0).current = some reply ∧ (s.space 1 0).waiting = []) ∧
    ((opened.setCport 6 fun x => { x with lockedOut := true }).cport 6).lockedOut = true ∧
    (let s : State := { opened with intake.lock := some { port := 0, source := 0, opcode := 0x0111, start := 0 } };
      (s.intake.lock.map (·.opcode)) = some 0x0111 ∧ (0x0111 : BitVec 16) ≠ 0x0200) := by
  decide +kernel

theorem witness_CompletionsAndIdentity :
    (let s : State := { opened with intake.table := [entry true true .other] };
      s.entry 0 0 9 = some (entry true true .other) ∧ (s.space 0 0).current = none ∧
        admits cardCmdPoll { cmd [9, 0, 0, 0] with tag := 8 } s = true) ∧
    (let s : State := { opened with intake.table := [entry false false (.domain 0 [])] };
      s.entry 0 0 9 = some (entry false false (.domain 0 [])) ∧ (entry false false (.domain 0 [])).isFor 0 0 9 = true ∧
        s.intake.busy = none ∧ admits cardCmdPoll { cmd [9, 0, 0, 0] with tag := 8 } s = true) ∧
    admits cardDevIdent (cmd []) opened = true ∧ admits cardDevInventory (cmd []) opened = true := by
  decide +kernel

theorem witness_PortFillsHeader :
    let bs : List Byte := List.replicate 16 0
    let cs : List Byte := List.replicate 10 0 ++ List.replicate 6 0xFF
    bs.length = cs.length ∧ bs.take 10 = cs.take 10 ∧ bs.drop 16 = cs.drop 16 ∧ (5 : Nat) ≤ (7 : Fin 8).val := by
  decide +kernel

theorem witness_CounterRead : admits cardCmdCounterRead (cmd []) opened = true := by decide +kernel

/-! ### Power, clocks and reset (15) -/

theorem witness_PowerStartsAndStops :
    State.reset.power.phase = .starting ∧ State.reset.power.phase ≠ .dormant ∧ State.reset.frozen.getLsbD 5 = false ∧
    (let s : State := { opened with dbg.freeze := 0x20, cap.stopped := 1 };
      s.frozen.getLsbD 5 = true) ∧
    (let s : State := { opened with power.resetDue := some (4, false) };
      s.power.resetDue = some (4, false)) ∧
    (let s : State := { opened with power.resetNLow := true, power.phase := .inReset };
      s.power.resetNLow = true ∧ s.power.phase = .inReset ∧ s.power.thermtrip = false) ∧
    (let s : State := { opened with power.thermtrip := true, power.phase := .inReset };
      s.power.phase = .inReset ∧ s.power.thermtrip = true ∧ s.power.resetNLow = false) ∧
    (let s : State := { opened with dev.role := true, part.guestTrains := false };
      s.dev.role = true ∧ s.part.guestTrains = false) ∧
    (let s : State := { opened with power.dormantDue := true };
      s.power.dormantDue = true ∧ s.cap.draining = false) ∧
    (let s : State := { opened with power.phase := .dormant, power.wakeEn := 2, power.vin := 4800 };
      s.power.phase = .dormant ∧ 580 < s.power.vin.toNat ∧ s.power.wakeEn.getLsbD 0 = false ∧
        s.power.wakeEn.getLsbD 1 = true) ∧
    (1760 : BitVec 16).toInt ≥ 1760 ∧ ({ opened with power.phase := .running } : State).power.phase = .running := by
  decide +kernel

/-- The part runs, Open, with every alarm's policy yes. -/
def guarded : State := { opened with power.phase := .running, sec.stored := .opened, sec.policy := 0x1F }

theorem witness_TamperAndPowerLimits :
    (guarded.power.phase = .running ∧ guarded.evr.returnState = false ∧ guarded.sec.stored ≠ .blank ∧
      guarded.sec.policy.getLsbD 2 = true ∧ guarded.sec.latch = false) ∧
    ({ guarded with sec.policy := 0 } : State).sec.policy.getLsbD 2 = false ∧
    ({ guarded with sec.latch := true } : State).sec.latch = true ∧
    (let s : State := { opened with power.vin := 4800 };
      min 1700 (405 * s.power.vin.toNat / 1000) < 1701 ∧ 100 * 1614 < 95 * min 1700 (405 * s.power.vin.toNat / 1000) ∧
        s.power.mode ≠ .trim ∧ s.power.engDiv ≠ 15 ∧ s.power.genStep = 0) ∧
    (let s : State := { opened with power.engDiv := 15, power.genStep := 16, power.vin := 4800 };
      s.power.engDiv = 15 ∧ s.power.genStep = 16 ∧ s.power.mode ≠ .hold ∧ s.cap.draining = false ∧ s.engines = [] ∧
        s.dram.queues = [] ∧ s.isMember = false) ∧
    (opened.loop 0).effLo.toNat ≤ opened.power.supplyOf 16 ∧ opened.power.supplyOf 16 ≤ (opened.loop 0).effHi.toNat ∧
    (let p : Power := { opened.power with supply := [(0, 109), (16, 191)] };
      p.supplyOf 0 < (opened.loop 0).effLo.toNat ∧ (opened.loop 0).effLo.toNat ≤ p.supplyOf 16 ∧
        (opened.loop 0).effHi.toNat < p.supplyOf 16) ∧
    (9 < (opened.loop 1).effLo.toNat ∧ (opened.loop 1).effHi.toNat < 41 ∧ (opened.loop 1).effLo.toNat ≤ opened.power.droop ∧
      opened.power.droop ≤ (opened.loop 1).effHi.toNat) := by
  decide +kernel

def group0 : SeamGroup := { seam := 0, dir := 0, group := 0 }

theorem witness_ClocksPinsAndSupplies :
    (let c : Clk := { opened.clk with fsel := 2, xoQualified := false };
      c.fsel ≠ 7 ∧ c.xoQualified = false ∧ c.xoFailed = false ∧ c.xoReadings.length < 7) ∧
    ((-25001 : Int) < -25000 ∧ (25001 : Int) > 25000 ∧ (25000 : Int) ≤ 25000) ∧
    ({ opened.clk with xoQualified := true } : Clk).xoQualified = true ∧
    ((800 : BitVec 24).toInt.natAbs ≤ 800 ∧ opened.clk.mon.stage = 0) ∧
    (8000 < (8001 : BitVec 24).toInt.natAbs ∧ (2 : BitVec 4) ≠ 15 ∧ opened.clk.monAlt.stage ≠ 3 ∧
      opened.clk.monAlt.stage.toNat < 2) ∧
    (let s : State := { opened with clk.pendingPrimary := some (1, 15) };
      s.clk.pendingPrimary = some (1, 15) ∧ s.intake.busy = none ∧ (1 : BitVec 4) ≠ s.clk.current ∧
        (3 : BitVec 4) = s.clk.current) ∧
    (let s : State := { opened with fab.vioPresent := 0x80000000 };
      s.fab.vioPresent.getLsbD 31 = true ∧ s.fab.vioPresent.getLsbD 0 = false) ∧
    ({ opened with svp.vioPresent := true } : State).svp.vioPresent = true ∧
    ({ opened with svp.vioPresent := false } : State).svp.vioPresent = false ∧
    opened.pinSleeps 95 = false ∧ ({ opened with svp.sleeping := true, power.phase := .dormant } : State).pinSleeps 0 = true ∧
    (0x1000 : W32).getLsbD 12 = true ∧ (0xEFFF : W32).getLsbD 12 = false := by
  decide +kernel

theorem witness_PowerCommands :
    admits cardPwrModeSet (cmd ([1] ++ List.replicate 15 0)) opened = true ∧
    (opened.power.mode = .run ∧ opened.power.holdDue = none ∧ opened.power.dormantDue = false ∧ opened.power.modeCmds = []) ∧
    admits cardPwrTrimSet (cmd [150, 0, 0, 0]) opened = true ∧ admits cardPwrTrimSet (cmd [0xA4, 6, 0, 0]) opened = true ∧
    admits cardPwrPolicySet (cmd [1, 0, 5, 0, 0, 0, 255, 0]) opened = true ∧
    admits cardPwrPolicySet (cmd [2, 0, 0, 0, 0, 0, 0, 0]) opened = true ∧
    admits cardPwrStatus (cmd []) opened = true ∧ admits cardPwrReset (cmd []) opened = true ∧
    admits cardPwrIslandSet (cmd [8, 0, 0, 0]) (opened.setUnit 8 fun x => { x with state := .fenced }) = true ∧
    (let s : State := { opened with power.islands := 0 };
      admits cardPwrIslandSet (cmd [8, 1, 0, 0]) s = true) ∧
    admits cardClkSourceSet (cmd [3, 0xFF, 0, 0]) opened = true ∧ admits cardClkOutSet (cmd [0, 0, 0, 0]) opened = true ∧
    admits cardClkStatus (cmd []) opened = true ∧
    (let s : State := { opened with power.poweringUp := [(16, 0, 0, 9)] };
      s.power.poweringUp = [(16, 0, 0, 9)]) := by
  decide +kernel

/-! ### Fabric, seams and coping memory (03 to 05) -/

/-- Every brick loaded, every line live, and the bits of one course as counted. -/
def imaged (n a b : Nat) (bits : List Nat) : State :=
  { opened with cfg.loaded := 0xFF, cfg.frameMem := frames n a b bits, fab.clkLive := BitVec.allOnes 64 }

/-- The number of bit `b` of field `f` of element `k`. -/
def bitNo (k f b : Nat) : Nat := Config.elemStart k + Config.fieldStart k f + b

theorem field {n a b elem fld w v : Nat} {bits : List Nat}
    (h : bitsNat ((List.range w).map fun i => decide (Config.elemStart elem + Config.fieldStart elem fld + i ∈ bits)) = v) :
    (imaged n a b bits).courseField n a b elem fld w = v := (courseField_frames rfl elem fld w).trans h

def le0 : LeAddr := { brick := 0, u := 0, v := 0, k := 0 }

/-- Global line 0 rises. -/
def rising : FabEvent :=
  { same := false, rises := 1, falls := 0, regional := [], restore := false, inWindow := false, high := [] }

/-- Global line 0 falls. -/
def falling : FabEvent := { rising with rises := 0, falls := 1 }

/-- A sink that selects a constant, or nothing, shows it at every instant. -/
theorem tilePin_sink {s : State} {t : TileAddr} {k i : Nat} {src : Option PinSrc} (h : s.sinkSrc t k = src)
    (hc : ∀ lv lv', sinkLevel lv t k src = sinkLevel lv' t k src) {v : Bool} (hv : sinkLevel (fun _ => none) t k src = some v) :
    s.tilePin i (.sink t k) = v := by
  have step : ∀ d, s.atEdge.levelIn (d + 1) (.sink t k) = some v := fun d => by
    rw [← hv, hc (fun _ => none) (s.atEdge.levelIn d), ← h]; rfl
  have top := step (2 ^ 33 - 1)
  rw [show 2 ^ 33 - 1 + 1 = 2 ^ 33 from rfl] at top
  unfold State.tilePin State.levelOr State.level
  rw [top]; rfl

/-- ff0 of LE 0 resets from line A, which is the constant 1. -/
def resetBits : List Nat := [bitNo 0 11 0, bitNo 256 188 0, bitNo 256 188 1, bitNo 256 188 4, bitNo 256 188 5, bitNo 256 188 7]

/-- Line A is asynchronous. -/
def asyncReset : State := imaged 0 0 0 (bitNo 256 0 0 :: resetBits)

/-- Line A is synchronous. -/
def syncReset : State := imaged 0 0 0 resetBits

/-- Line A is asynchronous and unconnected. -/
def freeReset : State := imaged 0 0 0 [bitNo 0 11 0, bitNo 256 0 0]

theorem witness_FabricFlipFlopsAndMemories_async :
    (let s := asyncReset.openEdge rising;
      (s.leCfg le0).rst0 = 1 ∧ (s.tileCfg le0.tileAddr).aAsync = true ∧ s.leStage le0 = 3 ∧ (s.ffPins rising le0 false).trA = true) ∧
    (let s := freeReset.openEdge { rising with inWindow := true };
      (s.leCfg le0).rst0 = 1 ∧ (s.tileCfg le0.tileAddr).aAsync = true ∧ s.leStage le0 = 3 ∧
        (s.ffPins { rising with inWindow := true } le0 false).trA = false ∧ s.sinkSrc le0.tileAddr 176 = none) := by
  have h1 : (asyncReset.openEdge rising).sinkSrc le0.tileAddr 176 = some (.const true) := by
    show (let v := unreserve 180 (asyncReset.courseField 0 0 0 256 188 8); if v = 0 then none else some (pinSrcOf (v - 1))) = _
    rw [asyncReset, field (v := 179) (by decide +kernel)]; rfl
  have h2 : (freeReset.openEdge { rising with inWindow := true }).sinkSrc le0.tileAddr 176 = none := by
    show (let v := unreserve 180 (freeReset.courseField 0 0 0 256 188 8); if v = 0 then none else some (pinSrcOf (v - 1))) = _
    rw [freeReset, field (v := 0) (by decide +kernel)]; rfl
  refine ⟨⟨?_, ?_, by decide +kernel, tilePin_sink h1 (fun _ _ => rfl) rfl⟩,
    ?_, ?_, by decide +kernel, tilePin_sink h2 (fun _ _ => rfl) rfl, h2⟩
  · show unreserve 3 (asyncReset.courseField 0 0 0 0 11 2) = 1
    rw [asyncReset, field (v := 1) (by decide +kernel)]; rfl
  · show (asyncReset.courseField 0 0 0 256 0 1 == 1) = true
    rw [asyncReset, field (v := 1) (by decide +kernel)]; rfl
  · show unreserve 3 (freeReset.courseField 0 0 0 0 11 2) = 1
    rw [freeReset, field (v := 1) (by decide +kernel)]; rfl
  · show (freeReset.courseField 0 0 0 256 0 1 == 1) = true
    rw [freeReset, field (v := 1) (by decide +kernel)]; rfl

theorem witness_FabricFlipFlopsAndMemories_sync :
    let s := syncReset.openEdge rising
    (s.leCfg le0).rst0 = 1 ∧ (s.tileCfg le0.tileAddr).aAsync = false ∧ (s.ffPins rising le0 false).trA = true := by
  have h1 : (syncReset.openEdge rising).sinkSrc le0.tileAddr 176 = some (.const true) := by
    show (let v := unreserve 180 (syncReset.courseField 0 0 0 256 188 8); if v = 0 then none else some (pinSrcOf (v - 1))) = _
    rw [syncReset, field (v := 179) (by decide +kernel)]; rfl
  refine ⟨?_, ?_, tilePin_sink h1 (fun _ _ => rfl) rfl⟩
  · show unreserve 3 (syncReset.courseField 0 0 0 0 11 2) = 1
    rw [syncReset, field (v := 1) (by decide +kernel)]; rfl
  · show (syncReset.courseField 0 0 0 256 0 1 == 1) = false
    rw [syncReset, field (v := 0) (by decide +kernel)]; rfl

/-- A tile whose fields are all 0. -/
def plainTile : TileCfg :=
  { aAsync := false, bAsync := false, aHold := false, bHold := false, src0 := 0, src1 := 0, gate0 := false, gate1 := false
    inv0 := false, inv1 := false, cinSel := 0, wide := false }

/-- The tile clock of a tile whose fields are all 0 is global line 0, not inverted. -/
theorem witness_FabricFlipFlopsAndMemories_edge :
    (∀ tge, (imaged 0 0 0 []).tileEdge rising le0.tileAddr false tge = true) ∧
    (∀ tge, (imaged 0 0 0 []).tileEdge falling le0.tileAddr false tge = false) := by
  have z : (imaged 0 0 0 []).tileField le0.tileAddr = fun _ _ => 0 := funext fun f => funext fun w => courseField_empty rfl _ _ _ _ f w
  have c : (imaged 0 0 0 []).tileCfg le0.tileAddr = plainTile := by
    unfold State.tileCfg; rw [z]; rfl
  unfold State.tileEdge
  rw [c]
  exact ⟨fun tge => by cases tge <;> decide +kernel, fun tge => by cases tge <;> decide +kernel⟩

theorem witness_FabricFlipFlopsAndMemories_none :
    ((imaged 0 0 0 []).leCfg le0).rst0 = 0 ∧ (imaged 0 0 0 []).leStage le0 = 3 ∧ State.reset.leStage le0 < 2 ∧
    rising.inWindow = false ∧ ({ rising with restore := true } : FabEvent).restore = true := by
  refine ⟨?_, by decide +kernel, by decide +kernel, rfl, rfl⟩
  show unreserve 3 ((imaged 0 0 0 []).courseField 0 0 0 0 11 2) = 0
  rw [field (v := 0) (by decide +kernel)]; rfl

/-- Pin 0 of bank 0 with `reg` registers, its course loaded. -/
def ioWith (bits : List Nat) : State := imaged 0 (ioCourse 0 0).a (ioCourse 0 0).b bits

theorem witness_FabricFlipFlopsAndMemories_io :
    (ioWith []).courseHeld (ioCourse 0 0) = false ∧ ((ioWith []).ioFields 0 0).reg = 0 ∧
    ((ioWith [bitNo 500 7 0]).ioFields 0 0).reg = 1 ∧ ((ioWith [bitNo 500 7 1]).ioFields 0 0).reg = 2 ∧
    (ioWith []).selEdge rising (ioCourse 0 0) 0 = (true, false) ∧ (ioWith []).selEdge falling (ioCourse 0 0) 0 = (false, true) := by
  have r (bits : List Nat) (v : Nat) (h7 : bitsNat ((List.range 2).map fun i =>
      decide (Config.elemStart 500 + Config.fieldStart 500 7 + i ∈ bits)) = v) (hv : v < 3) :
      ((ioWith bits).ioFields 0 0).reg = v := by
    have e : (ioWith bits).courseField (ioCourse 0 0).brick.val (ioCourse 0 0).a.val (ioCourse 0 0).b.val 500 7 2 = v := field h7
    exact (if_neg fun h => by have := e.symm.trans h.1; omega).trans e
  exact ⟨by decide +kernel, r _ _ (by decide +kernel) (by decide), r _ _ (by decide +kernel) (by decide),
    r _ _ (by decide +kernel) (by decide), by decide +kernel, by decide +kernel⟩

/-- Wire 5 of a seam group is registered. -/
def seamWire : State := imaged 1 0 0 [bitNo 300 0 5]

theorem witness_FabricFlipFlopsAndMemories_seam :
    bitAt (seamWire.groupField group0 0 32) 5 = true ∧ bitAt (seamWire.groupField group0 0 32) 4 = false ∧
    2 ≤ seamWire.stage 1 0 0 ∧ seamWire.seamInactive 0 = false ∧ (seamWire.group group0).defects.getLsbD 5 = false ∧
    seamWire.cfg.held = [] := by
  have h : seamWire.groupField group0 0 32 = 32 := by
    show seamWire.courseField 1 0 0 300 0 32 = 32
    rw [seamWire, field (v := 32) (by decide +kernel)]
  rw [h]; decide +kernel

theorem witness_ClocksPinsAndSupplies_sampling :
    seamWire.groupRegistered group0 = true ∧ seamWire.clkActive.getLsbD (seamWire.groupField group0 1 6) = true ∧
    seamWire.monitorOf group0 = some 0 := by
  refine ⟨?_, ?_, by decide +kernel⟩
  · show (seamWire.courseField 1 0 0 300 0 32 != 0) = true
    rw [seamWire, field (v := 32) (by decide +kernel)]; rfl
  · show seamWire.clkActive.getLsbD (seamWire.courseField 1 0 0 300 1 6) = true
    rw [seamWire, field (v := 0) (by decide +kernel)]; decide +kernel

theorem witness_FabricFlipFlopsAndMemories_memories :
    ((imaged 0 0 0 [bitNo 0 1 1]).leCfg le0).mode = 2 ∧ (imaged 0 0 0 [bitNo 0 1 1]).leStage le0 = 3 ∧
    ((imaged 0 0 0 [bitNo 0 1 0, bitNo 0 1 1]).leCfg le0).mode = 3 ∧ ((imaged 0 0 0 []).leCfg le0).mode = 0 := by
  refine ⟨?_, by decide +kernel, ?_, ?_⟩
  · show (imaged 0 0 0 [bitNo 0 1 1]).courseField 0 0 0 0 1 2 = 2
    rw [field (v := 2) (by decide +kernel)]
  · show (imaged 0 0 0 [bitNo 0 1 0, bitNo 0 1 1]).courseField 0 0 0 0 1 2 = 3
    rw [field (v := 3) (by decide +kernel)]
  · show (imaged 0 0 0 []).courseField 0 0 0 0 1 2 = 0
    rw [field (v := 0) (by decide +kernel)]

def req0 : GReq :=
  { src := { x := 4, y := 0, ep := 0 }, master := 0, op := .read, addr := 0, len := 3, tag := 0, byteEn := 0, data := []
    poison := 0, mgmt := false }

theorem witness_FabricPorts :
    (imaged 0 8 8 []).portMoves 0 = true ∧ State.reset.portMoves 0 = false ∧
    (((imaged 0 8 8 []).setPort 0 fun x => { x with tq := [req0] }).port 0).tq = [req0] ∧
    (((imaged 0 8 8 []).setPort 0 fun x => { x with delivered := [{ req := req0, tag := 63 }] }).port 0).delivered =
      [{ req := req0, tag := 63 }] ∧
    ((imaged 0 8 8 []).port 0).ir.length + ((imaged 0 8 8 []).port 0).iq.length < 16 ∧
    (imaged 0 8 8 []).frozen.getLsbD 0 = false := by
  refine ⟨?_, by decide +kernel⟩
  have h : (imaged 0 8 8 []).portClkSel 0 = 0 := by
    show (imaged 0 8 8 []).courseField 0 8 8 273 0 6 = 0
    rw [field (v := 0) (by decide +kernel)]
  unfold State.portMoves State.portRuns
  rw [h]; decide +kernel

/-- A slab of its own with two byte-wide ports; port A in mode 1, port B in mode 2. -/
def slab0 : State := imaged 0 0 0
  [bitNo 272 0 0, bitNo 272 2 0, bitNo 272 2 1, bitNo 272 3 0, bitNo 272 3 1, bitNo 272 4 0, bitNo 272 5 1]

theorem witness_CopingAccesses_slab :
    slab0.slabCfg 0 0 = { use := 1, a := { width := 3, wmode := 1, clkSel := 0 }, b := { width := 3, wmode := 2, clkSel := 0 } } ∧
    2 ≤ slab0.stage 0 0 0 ∧ (slab0.slabPort 0 0 0).thr = 0 ∧ (slab0.slabPort 0 0 1).thr = 0 ∧
    (slab0.slabPort 0 0 0).pipe = [] ∧ (slab0.cop 0 0 16383).chk = .clean := by
  refine ⟨?_, by decide +kernel⟩
  have f (fld w v : Nat) (h : bitsNat ((List.range w).map fun i => decide (Config.elemStart 272 + Config.fieldStart 272 fld + i ∈
      [bitNo 272 0 0, bitNo 272 2 0, bitNo 272 2 1, bitNo 272 3 0, bitNo 272 3 1, bitNo 272 4 0, bitNo 272 5 1])) = v) :
      slab0.courseField 0 (0 % 160) (0 / 160) 272 fld w = v := field h
  unfold State.slabCfg
  dsimp only
  rw [f 0 2 1 (by decide +kernel), f 1 1 0 (by decide +kernel), f 2 3 3 (by decide +kernel), f 3 3 3 (by decide +kernel),
    f 4 2 1 (by decide +kernel), f 5 2 2 (by decide +kernel), f 6 1 0 (by decide +kernel), f 7 1 0 (by decide +kernel),
    f 8 7 0 (by decide +kernel), f 9 7 0 (by decide +kernel), f 10 1 0 (by decide +kernel), f 11 1 0 (by decide +kernel), f 12 1 0 (by decide +kernel), f 13 6 0 (by decide +kernel),
    f 14 6 0 (by decide +kernel), f 15 2 0 (by decide +kernel)]
  decide +kernel

theorem witness_CopingAccesses_window :
    (0x19000000 ≤ (0x19000000 : Nat)) ∧ ((0x18FFFFFF : Nat) < 0x19000000) ∧
    (opened.setDie 0 fun d => { d with held := true }).dieAbsent 0 = true ∧ opened.dieAbsent 0 = false ∧
    opened.slabInPartial 0 25599 = false ∧ SMap.look {} opened.coping.mem 0x18FFFFFF = ({} : MByte) ∧
    ({ opened with cfg.held := [.rect 0 0 0 1 1] } : State).slabInPartial 0 0 = true := by
  decide +kernel

/-- The walk of die 7 is on, at its last line but one. -/
def scrubbing (line : Nat) : State :=
  { opened with coping.scrubCtl := 0x00FF0001, coping.scrubPos := [(7, line)] }

theorem witness_CopingUpkeep :
    opened.scrubs 7 = false ∧ (scrubbing 26214398).scrubs 7 = true ∧
    SMap.look 0 (scrubbing 26214398).coping.scrubPos 7 + 1 < 26214400 ∧
    SMap.look 0 (scrubbing 26214399).coping.scrubPos 7 + 1 = 26214400 ∧
    (0x80 : W32).getLsbD 7 = true ∧ (0x80 : W32).getLsbD 0 = false := by
  decide +kernel

theorem witness_FabricCommands :
    admits cardFabSeamRepair (cmd [0, 0, 1, 5, 0, 0, 1, 0]) opened = true ∧
    admits cardFabSeamRepair (cmd [9, 1, 0, 0, 0, 0, 16, 0]) opened = true ∧ opened.part.seamFaults = [] ∧
    admits cardFabSeamRepair (cmd [9, 1, 0, 0, 0, 0, 17, 0]) opened = true ∧
    admits cardFabStatus (cmd [1, 0, 0, 0, 0, 0, 2, 0]) opened = true ∧ admits cardFabStatus (cmd [0, 0, 0, 0, 0, 0, 0, 0]) opened = true ∧
    admits cardCpgScrubSet (cmd [255, 1, 0, 0]) opened = true ∧ admits cardCpgStatus (cmd []) opened = true := by
  decide +kernel

/-! ### Loading the personality (06) -/

def bytes (l : List Nat) : List Byte := l.map (BitVec.ofNat 8)

/-- The state with a load under way. -/
def loading (l : Load) : State := { opened with cfg.load := some l, cfg.held := [.bricks 1] }

/-- The first 96 bytes of a full image's header for brick 0: version 7, 1,000 bytes, one trailer chunk. -/
def headerText : List Byte :=
  bytes ([0x4C, 0x4D, 0x52, 0x03, 1, 0, 0, 0, 1, 0, 0, 0, 7, 0, 0, 0, 0xE8, 3, 0, 0, 0, 0, 0, 0, 2, 0, 0, 0] ++
    List.replicate 68 0)

def header : List Byte := headerText ++ Crypto.sha256 headerText

theorem slice_append {a b : List Byte} {n m : Nat} (ha : a.length = n) (hb : b.length = m) : slice (a ++ b) n m = b := by
  simp [slice, List.drop_left' ha, List.take_of_length_le (Nat.le_of_eq hb), hb]

theorem header_length : header.length = 128 := by
  unfold header
  rw [List.length_append, Crypto.sha256_length]; rfl

theorem header_digest : Crypto.sha256 (header.take 96) = slice header 96 32 := by
  unfold header
  rw [List.take_left' (by rfl), slice_append (by rfl) (Crypto.sha256_length _)]

def headerLoad : Load := { source := .host, rx := header.map fun v => (v, false) }

theorem witness_ImageUnitsAndRelease_header :
    headerLoad.phase = .awaitHeader ∧ headerLoad.rx.length = 128 ∧ isPartial header = false ∧
    headerFault headerLoad header (loading headerLoad) = none := by
  refine ⟨rfl, by rw [headerLoad, List.length_map, header_length], by decide +kernel, ?_⟩
  rw [headerFault, header_digest]
  simp only [ne_eq, not_true_eq_false, if_false]
  decide +kernel

/-- The first 96 bytes of a partial's header: course (159, 159) of brick 0, over version 7. -/
def partialText : List Byte :=
  bytes ([0x4C, 0x4D, 0x52, 0x03, 1, 1, 0, 0, 1, 0, 0, 0, 8, 0, 0, 0, 0xE8, 3, 0, 0, 0, 0, 0, 0, 2, 0, 0, 0, 7, 0, 0, 0,
    159, 0, 159, 0, 159, 0, 159, 0] ++ List.replicate 56 0)

def partialHeader : List Byte := partialText ++ Crypto.sha256 partialText

def partialLoad : Load := { source := .host, rx := partialHeader.map fun v => (v, false) }

theorem witness_ImageUnitsAndRelease_partial :
    partialLoad.rx.length = 128 ∧ isPartial partialHeader = true ∧
    headerFault partialLoad partialHeader { loading partialLoad with cfg.loaded := 1, cfg.versions := [(0, 7)] } = none := by
  have hd : Crypto.sha256 (partialHeader.take 96) = slice partialHeader 96 32 := by
    unfold partialHeader
    rw [List.take_left' (by rfl), slice_append (by rfl) (Crypto.sha256_length _)]
  refine ⟨?_, by decide +kernel, ?_⟩
  · rw [partialLoad, List.length_map, partialHeader, List.length_append, Crypto.sha256_length]; rfl
  · rw [headerFault, hd]
    simp only [ne_eq, not_true_eq_false, if_false]
    decide +kernel

/-- A header whose device is another chip's. -/
def wrongText : List Byte := bytes ([0x4C, 0x4D, 0x00, 0x10] ++ List.replicate 92 0)

theorem witness_ImageUnitsAndRelease_refused :
    isPartial (bytes [0, 0, 0, 0, 0, 1]) = true ∧ headerLoad.source = .host ∧ headerLoad.unfinished = true ∧
    headerFault headerLoad (wrongText ++ Crypto.sha256 wrongText) (loading headerLoad) = some (Status.imageWrongDevice, 12) := by
  refine ⟨by decide +kernel, rfl, by decide, ?_⟩
  have hd : Crypto.sha256 ((wrongText ++ Crypto.sha256 wrongText).take 96) = slice (wrongText ++ Crypto.sha256 wrongText) 96 32 := by
    rw [List.take_left' (by rfl), slice_append (by rfl) (Crypto.sha256_length _)]
  rw [headerFault, hd]
  simp only [ne_eq, not_true_eq_false, if_false]
  decide +kernel

/-- A chunk of an unencrypted image: its header, payload and tag. -/
def chunk (head payload : List Nat) : List Byte :=
  bytes (head ++ payload) ++ (Crypto.sha256 (bytes (head ++ payload))).take 16

/-- One frame of brick 0, 1,152 bytes of 0x55 as 18 runs. -/
def frameHead : List Nat := [1, 0, 0, 0, 0, 0, 1, 0, 0, 0, 0, 0, 1, 0, 0, 0, 36, 0, 0, 0] ++ List.replicate 12 0

def frameRuns : List Nat := (List.replicate 17 [0xBF, 0x55]).flatten ++ [0x9B, 0x55]

/-- Slab 0, 16,384 bytes as 249 runs. -/
def slabHead : List Nat := [1, 0, 0, 0, 1, 0, 1, 0, 0, 0, 0, 0, 1, 0, 0, 0, 0xF4, 1, 0, 0] ++ List.replicate 12 0

def slabRuns : List Nat := (List.replicate 248 [0xBF, 0x55]).flatten ++ [0x8D, 0x55, 0, 0]

/-- The trailer of an image of one chunk. -/
def endHead : List Nat := [1, 0, 0, 0, 2, 0xFF, 0, 0, 0, 0, 0, 0, 0, 0, 0, 0, 16, 0, 0, 0] ++ List.replicate 12 0

def endBytes : List Nat := [1] ++ List.replicate 15 0

def writingLoad (head payload : List Nat) : Load :=
  { source := .host, phase := .writing, header := headerText, rx := (chunk head payload).map fun v => (v, false)
    region := some (.bricks 1), bytes := 1000 }

theorem rx_length (head payload : List Nat) :
    (writingLoad head payload).rx.length = head.length + payload.length + 16 := by
  simp [writingLoad, chunk, bytes, Crypto.sha256_length]; omega

theorem rx_bytes (head payload : List Nat) : (writingLoad head payload).rx.map (·.1) = chunk head payload := by
  simp [writingLoad, List.map_map, Function.comp_def]

/-- The tag of a chunk so made passes. -/
theorem chunk_tag {h : List Byte} (he : encrypted h = false) {head payload : List Nat} (s : State) (hl : head.length = 32)
    (hn : fieldAt (chunk head payload) 16 4 = payload.length) :
    chunkTagOk h (chunk head payload) s = true := by
  have hb : bytes (head ++ payload) = bytes head ++ bytes payload := by simp [bytes]
  have h1 : (bytes head).length = 32 := by simp [bytes, hl]
  have h2 : (bytes payload).length = payload.length := by simp [bytes]
  have s0 : slice (chunk head payload) 0 32 = bytes head := by
    simp [slice, chunk, hb, List.take_left' h1, h1]
  have s1 : slice (chunk head payload) 32 payload.length = bytes payload := by
    simp [slice, chunk, hb, List.append_assoc, List.drop_left' h1, List.take_left' h2, h2]
  have s2 : slice (chunk head payload) (32 + payload.length) 16 = (Crypto.sha256 (bytes (head ++ payload))).take 16 := by
    unfold chunk
    exact slice_append (by rw [hb, List.length_append, h1, h2]) (by rw [List.length_take, Crypto.sha256_length]; rfl)
  simp only [chunkTagOk, hn, he, s0, s1, s2, ← hb, Bool.false_eq_true, if_false, beq_self_eq_true]

theorem rx_clean (head payload : List Nat) : (writingLoad head payload).rx.any (·.2) = false := by
  simp [writingLoad]

/-- The output of a chunk's checks is as `f` says. -/
def gives (head payload : List Nat) (f : List Byte → Bool) : Bool :=
  match checkChunk (writingLoad head payload) (writingLoad head payload).rx (loading (writingLoad head payload)) with
  | .inl _ => false
  | .inr out => f out

theorem witness_ImageUnitsAndRelease_frames :
    32 ≤ (writingLoad frameHead frameRuns).rx.length ∧
    (writingLoad frameHead frameRuns).rx.length = (writingLoad frameHead frameRuns).need ∧
    fieldAt (chunk frameHead frameRuns) 4 1 = 0 ∧ gives frameHead frameRuns (fun out => out.length == 1152) = true := by
  have ht := chunk_tag (h := headerText) (by decide +kernel) (loading (writingLoad frameHead frameRuns))
    (show frameHead.length = 32 by rfl) (payload := frameRuns) (by decide +kernel)
  refine ⟨by rw [rx_length]; decide, ?_, by decide +kernel, ?_⟩
  · unfold Load.need; rw [rx_bytes, rx_length]; decide +kernel
  · unfold gives checkChunk
    rw [rx_bytes, show (writingLoad frameHead frameRuns).header = headerText from rfl]
    simp only [ht, rx_clean, Bool.not_true, Bool.false_eq_true, if_false]
    decide +kernel

theorem witness_ImageUnitsAndRelease_slabs :
    (writingLoad slabHead slabRuns).rx.length = (writingLoad slabHead slabRuns).need ∧
    fieldAt (chunk slabHead slabRuns) 4 1 = 1 ∧ gives slabHead slabRuns (fun out => out.length == 16384) = true := by
  have ht := chunk_tag (h := headerText) (by decide +kernel) (loading (writingLoad slabHead slabRuns))
    (show slabHead.length = 32 by rfl) (payload := slabRuns) (by decide +kernel)
  refine ⟨?_, by decide +kernel, ?_⟩
  · unfold Load.need; rw [rx_bytes, rx_length]; decide +kernel
  · unfold gives checkChunk
    rw [rx_bytes, show (writingLoad slabHead slabRuns).header = headerText from rfl]
    simp only [ht, rx_clean, Bool.not_true, Bool.false_eq_true, if_false]
    decide +kernel

theorem witness_ImageUnitsAndRelease_bad_chunk :
    let l : Load := { writingLoad frameHead [] with rx := (List.replicate 32 0).map fun v => (v, false) }
    l.rx.length = l.need ∧ (match checkChunk l l.rx (loading l) with | .inl 3 => true | _ => false) = true := by
  decide +kernel

/-- The header that the trailer closes. -/
def endHeader : List Byte :=
  headerText.take 24 ++ bytes [1, 0, 0, 0] ++ bytes (List.replicate 36 0) ++ Crypto.sha256 (chunk endHead endBytes)

theorem witness_ImageUnitsAndRelease_trailer :
    fieldAt (chunk endHead endBytes) 4 1 = 2 ∧ (writingLoad endHead endBytes).bytes = fieldAt endHeader 16 8 ∧
    gives endHead endBytes (fun out => fieldAt out 0 4 == fieldAt endHeader 24 4 &&
      fieldAt out 0 4 == fieldAt (chunk endHead endBytes) 0 4 && fieldAt out 4 4 == 0 && fieldAt out 8 4 == 0 &&
      zeroAt out 12 4) = true ∧
    Crypto.sha256 ([] ++ chunk endHead endBytes) = slice endHeader 64 32 := by
  have ht := chunk_tag (h := headerText) (by decide +kernel) (loading (writingLoad endHead endBytes))
    (show endHead.length = 32 by rfl) (payload := endBytes) (by decide +kernel)
  refine ⟨by decide +kernel, by decide +kernel, ?_, ?_⟩
  · unfold gives checkChunk
    rw [rx_bytes, show (writingLoad endHead endBytes).header = headerText from rfl]
    simp only [ht, rx_clean, Bool.not_true, Bool.false_eq_true, if_false]
    decide +kernel
  · unfold endHeader
    rw [slice_append (by rfl) (Crypto.sha256_length _)]; rfl

theorem imageOk_empty {l : Load} {s : State} {r : Region} (hf : s.cfg.frameMem = []) (hr : l.region = some r)
    (hg : l.gotSlabs = []) : imageOk l s = true := by
  have hc : ∀ n slab, (s.slabCfg n slab).casLen = 0 := fun n slab => courseField_empty hf ..
  have hi : ∀ n slab, (s.slabCfg n slab).init = 0 := fun n slab => by
    show unreserve 3 _ = 0
    rw [courseField_empty hf]; rfl
  simp [imageOk, hr, hg, State.cascadeOk, hc, hi]

theorem witness_ImageUnitsAndRelease_trailer_image :
    imageOk (writingLoad endHead endBytes) (loading (writingLoad endHead endBytes)) = true := imageOk_empty rfl rfl rfl

/-- The load of the release. -/
def releasing (n : Nat) : Load := { source := .host, phase := .releasing, header := header, region := some (.bricks 1), released := n }

theorem witness_ImageUnitsAndRelease_steps :
    ({ opened with cfg.bootAsked := some true } : State).cfg.load = none ∧ opened.cfg.session = none ∧
    (let l := { headerLoad with rx := [] };
      l.unfinished = true ∧ [(0 : Byte)] ≠ [] ∧ [(0 : Byte)].length < 4 ∧ l.rx.length + 1 < l.need) ∧
    ({ releasing 0 with phase := .verifying } : Load).region = some (.bricks 1) ∧
    (releasing 0).released = 0 ∧ (releasing 1).released = 1 ∧ (releasing 2).released = 2 ∧ (releasing 2).source = .host ∧
    (loading (releasing 2)).intake.busy = none ∧ (headerMask (releasing 2).header).getLsbD 0 = true ∧
    isPartial (releasing 2).header = false := by
  decide +kernel

/-- A host's session of port 0 with its load; it holds the locked sequence. -/
def session (l : Option Load) : State :=
  { opened with
    cfg.session := some { port := 0, source := 0, stream := none, fetching := false }, cfg.load := l
    intake.lock := some { port := 0, source := 0, opcode := 0x0200, start := 0 } }

theorem witness_ConfigurationCommands :
    admits cardCfgBegin { cmd [] with flags := 0x20 } opened = true ∧
    (let s := session (some { headerLoad with rx := [] });
      admits cardCfgData (cmd ([0, 0, 0, 0, 0, 0, 0, 0, 4] ++ List.replicate 15 0 ++ [1, 2, 3, 4])) s = true ∧
        admits cardCfgData (cmd ([1, 0, 0, 0, 0, 0, 0, 0, 4] ++ List.replicate 15 0)) s = true ∧
        admits cardCfgData (cmd ([2, 0, 0, 0, 0, 0, 0, 0, 4] ++ List.replicate 15 0)) s = true ∧
        admits cardCfgEnd { cmd [] with flags := 0x40 } s = true ∧ admits cardCfgAbort { cmd [] with flags := 0x40 } s = true) ∧
    admits cardCfgEnd { cmd [] with flags := 0x40 } (session none) = true ∧
    admits cardCfgEnd { cmd [] with flags := 0x40 } (session (some (releasing 1))) = true ∧
    admits cardCfgEnd { cmd [] with flags := 0x40 } (session (some { headerLoad with phase := .failed })) = true ∧
    (let s : State := { opened with cfg.bootPins := 1, part.cfgBoot := 1 };
      admits cardCfgBoot (cmd [0, 0, 0, 0]) s = true) ∧
    admits cardCfgReleaseSet (cmd [16, 0, 0, 0]) opened = true ∧ admits cardCfgReleaseSet (cmd [0, 4, 0, 0]) opened = true ∧
    admits cardCfgStatus (cmd []) opened = true := by
  decide +kernel

/-! ### Registers (00) -/

theorem witness_RegisterAccess :
    (0x0F0000 : Nat) < 2 ^ 24 ∧ 0x0F0000 / 65536 ∈ [0, 6, 7, 9, 10, 13, 14, 15, 17, 18] ∧
    (0x2FFFFFFFFFFC : Addr).toNat < 0x300000000000 ∧ pairLow 0x020014 = true ∧ pairLow 0x020018 = false ∧
    (let r : GReq := { req0 with addr := 0x3F0000020014 };
      r.addr = BitVec.ofNat 48 (0x3F0000000000 + 0x020014) ∧ (0x020014 : Nat) % 4 = 0 ∧ r.len = 3 ∧ r.op = .read) ∧
    (let r : GReq := { req0 with op := .write, byteEn := 0xF00000, data := [1, 2, 3, 4] };
      (∀ i, i < 4 → r.byteEn.getLsbD (0x020014 % 256 + i) = true) ∧ r.byteEn.getLsbD (0x020018 % 256) = false) := by
  decide +kernel

/-! ### DRAM and its encryption (13) -/

/-- Every channel trained, with 32 GiB each; no region is on. -/
def dramUp : State :=
  { opened with
    dram.installed := 0x4000000000
    dram.chans := (List.range 8).map fun c => (c, { state := .trained, mts := 4800, capGiB := 32 }) }

/-- A region in GiB 1 whose contents are not in service. -/
def keyless : State := { dramUp with dram.regions := [(3, { state := .keyless, baseGiB := 1, sizeGiB := 1 })] }

def dreq (op : GOp) : DReq := { req := { req0 with op }, answered := true, inOrder := false }

theorem witness_DramRequests :
    (opened.chan 7).state ≠ .trained ∧ (dramUp.chan 7).state = .trained ∧
    (keyless.regionAt 0x40000000 = some 3 ∧ (keyless.region 3).state ≠ .active) ∧
    dramUp.regionAt 0 = none ∧
    (let s := dramUp.setQueue 15 (List.replicate 64 (dreq .read));
      64 ≤ ((s.queue 15).filter fun d => d.req.op == .read).length ∧
        ((s.queue 15).filter fun d => d.req.op == .write).length < 64) ∧
    (let s : State := { dramUp with dram.regions := [(3, { state := .active, baseGiB := 1, sizeGiB := 1 })] };
      s.regionAt 0x40000000 ≠ none ∧ (s.region 3).state = .active) ∧
    (let s := dramUp.setQueue 0 [dreq .write];
      s.queue 0 = [dreq .write] ∧ (∀ k, k < 8 → (s.region k).state = .off) ∧ s.dram.cache = [] ∧ s.dram.poisoned = [] ∧
        (dreq .write).req.poison = 0 ∧ (dreq .write).answered = true ∧ 0 % 64 + 4 ≤ 64) ∧
    (let s : State := { dramUp with part.dimms := [(0, { count := 2 })] };
      (s.chan 0).state = .trained ∧ (1 : Fin 2).val < (s.dimmsOf 0).count) ∧
    (let x := dramUp.chan 0;
      (dramUp.loop 2).effLo.toInt ≤ x.offset + 1 ∧ x.offset + 1 ≤ (dramUp.loop 2).effHi.toInt) ∧
    (let s := dramUp.setChan 0 fun x => { x with offset := 63 };
      (s.loop 2).effHi.toInt < (s.chan 0).offset + 1) := by
  decide +kernel

/-! ### Readback, capture, restore and trace (07) -/

def take (full resume : Bool) : Take :=
  { port := 0, source := 0, tag := 9, full, domain := false, resume, at_ := some 100, area := 0x1000, areaLength := 0x10000 }

/-- A capture in a phase, its command's entry kept. -/
def capturing (phase : CapPhase) (full resume : Bool) : State :=
  { dramUp with
    cap.capture := some { take := take full resume }, cap.phase := phase
    intake.table := [entry false false .other] }

def restore : Restore := { port := 0, source := 0, tag := 9, slabs := false, run := true, domain := false, area := 0x1000 }

/-- A restore of a checkpoint without sections: the count of its directory is 0. -/
def restoring : State :=
  { dramUp with cap.restore := some restore, cap.phase := .restoreLoading, dram.mem := [(0x100F, some 0)] }

theorem witness_CaptureEvents :
    (opened.dbg.freeze = 0 ∧ opened.dbg.lanesFrozen = false ∧ opened.power.mode ≠ .hold ∧ opened.power.holdDue = none ∧
      opened.isMember = false) ∧
    ((capturing .awaitEdge false true).cap.phase = .awaitEdge ∧ (capturing .awaitEdge false true).isMember = false ∧
      (take true false).full = true ∧ (take false true).resume = true ∧ (take true false).domain = false ∧
      opened.linesStopped = false) ∧
    (let s := capturing .lightDrain false false;
      s.cap.phase = .lightDrain ∧ s.intake.busy = none ∧ s.entry 0 0 9 = some (entry false false .other)) ∧
    (restoring.cap.restore = some restore ∧ restore.domain = false ∧
      readSections restore (dirOf restore.head) 1 restoring = (.inr [], restoring)) ∧
    (let s : State := { opened with cap.stopAt := some 7 };
      s.cap.stopAt.isSome = true ∧ s.cap.stopDue = false ∧ s.intake.busy = none) ∧
    ({ opened with cap.stopDue := true } : State).cap.stopDue = true ∧ opened.cap.stopAt = none ∧ opened.cap.phase = .idle ∧
    ({ opened with cap.phase := .pause } : State).cap.phase = .pause ∧
    ({ opened with cap.phase := .fullDrain } : State).cap.phase = .fullDrain := by
  decide +kernel

/-- A domain of two members, this part the second, restores a checkpoint of beat 0; the first has told its own beat. -/
def domainRestore (told : List (Byte × Option W64)) : State :=
  { opened with
    bond.state := .stopped, bond.members := 3, bond.device := 1
    cap.restore := some { restore with domain := true }, cap.phase := .restoreLoading, cap.peerBeats := told }

theorem witness_CaptureEvents_domain :
    (let s := domainRestore []; s.dbg.freeze = 0 ∧ s.dbg.lanesFrozen = false ∧ s.power.mode ≠ .hold ∧ s.power.holdDue = none ∧
      s.cap.restore = some { restore with domain := true } ∧ s.beatsAwaited = true) ∧
    (let s := domainRestore [(0, some 1)]; s.beatsAwaited = false ∧ s.cap.peerBeats = [(0, some 1)] ∧
      (1 : W64).toNat ≠ fieldAt restore.head 24 8) := by
  decide +kernel

/-- A piece is the same where it is so in a list of all of them. -/
theorem kept_of {ps : List Piece} {s t : State}
    (h : t.part = s.part ∧ t.dev = s.dev ∧ t.intake = s.intake ∧ t.fab = s.fab ∧ t.coping = s.coping ∧ t.cfg = s.cfg ∧
      t.bond = s.bond ∧ t.lanes = s.lanes ∧ t.grout = s.grout ∧ t.engines = s.engines ∧ t.gst = s.gst ∧
      t.power = s.power ∧ t.clk = s.clk ∧ t.dbg = s.dbg ∧ t.svp = s.svp ∧ t.latches = s.latches ∧ t.time = s.time ∧
      t.pending = s.pending) (hc : [Piece.cap, .dram, .evr, .sec, .freeNo].all ps.contains = true) : KeptBut ps s t := by
  obtain ⟨h1, h2, h3, h4, h5, h6, h7, h8, h9, h10, h11, h12, h13, h14, h15, h16, h17, h18⟩ := h
  simp only [List.all_cons, List.all_nil, Bool.and_true, Bool.and_eq_true, List.contains_iff_mem] at hc
  obtain ⟨c1, c2, c3, c4, c5⟩ := hc
  intro p hp
  cases p <;> first | contradiction | assumption

theorem witness_CaptureEvents_strike :
    let s := capturing .awaitEdge false false
    let k : Capture := { take := take false false }
    let w := strikeCapture k.take { s with cap := { s.cap with edges := 100 } }
    let v := storeCounted 3 k.take.area.toNat (leBytes 4 0) w
    s.cap.capture = some k ∧ v.1 = 0 ∧ KeptBut [.cap, .dram, .evr, .sec, .freeNo] w v.2.2 ∧ v.2.2.cap = w.cap := by
  refine ⟨rfl, by decide +kernel, kept_of (by decide +kernel) (by decide), by decide +kernel⟩

theorem witness_CaptureEvents_drain :
    let s := capturing .lightDrain false false
    let k : Capture := { take := take false false }
    let q := checkpointSections k s
    let bytes := encodeCheckpoint k q.1 q.2
    let v := storeCounted 3 (k.take.area.toNat + 4) (bytes.drop 4) q.2.stepFree
    let w := storeCounted 3 k.take.area.toNat (leBytes 4 1) { v.2.2 with cap.drain := BitVec.ofNat 64 (4 + v.2.1) }
    v.1 = 0 ∧ w.1 = 0 ∧ KeptBut [.cap, .dram, .evr, .sec, .freeNo] s w.2.2 ∧
      w.2.2.cap = { s.cap with drain := BitVec.ofNat 64 (4 + v.2.1) } := by
  refine ⟨by decide +kernel, by decide +kernel, kept_of (by decide +kernel) (by decide),
    by decide +kernel⟩

def collecting (samples : Nat) : State :=
  opened.setColl 7 fun c => { c with
    running := true, line := 63, taps := [(0, 1)]
    samples := List.replicate samples { bytes := [], mark := false, edge := 1, beat := 0, lost := 0 } }

/-- Trigger unit 15 is armed on source 1. -/
def armed : State := opened.setTrig 15 fun t => { t with armed := true, inputs := [1], need := 1 }

theorem witness_TraceAndTriggers :
    (let s : State := { collecting 0 with fab.clkLive := BitVec.allOnes 64 };
      (s.coll 7).running = true ∧ s.clkActive.getLsbD (s.coll 7).line.toNat = true ∧ (s.coll 7).postCount = none ∧
        (s.coll 7).samples.length < (s.coll 7).room) ∧
    (opened.coll 7).running = false ∧
    (let c := { (collecting 64).coll 7 with samples := List.replicate 1088 { bytes := [], mark := false, edge := 1, beat := 0, lost := 0 } };
      c.room ≤ c.samples.length) ∧
    (((collecting 64).coll 7).dram = false ∧ 64 ≤ ((collecting 64).coll 7).samples.length ∧ ((collecting 64).coll 7).wrap = false) ∧
    (((collecting 63).coll 7).samples.length < 64 ∧ ((collecting 63).coll 7).flush = false) ∧
    (opened.trig 15).armed = false ∧
    ((armed.trig 15).armed = true ∧ (armed.trig 15).inputs = [1] ∧ (1 : BitVec 16).toNat < 0x0D00 ∧ (armed.trig 15).combine.toNat < 2 ∧
      (armed.trig 15).inputs ≠ []) ∧
    (({ armed with bond.state := .running } : State).isMember = true ∧ opened.isMember = false) ∧
    ((opened.trig 15).due = false ∧ opened.dbg.freeze = 0 ∧ opened.dbg.lanesFrozen = false ∧ opened.power.holdDue = none) ∧
    (let s := opened.setTrig 15 fun t => { t with due := true, firedAt := some 5, actions := 0x1F };
      (s.trig 15).due = true ∧ (s.trig 15).firedAt = some 5 ∧ s.isMember = false ∧ s.cap.armed = none ∧
        (s.trig 15).actions.getLsbD 1 = true ∧ (s.trig 15).postCount = 0) := by
  decide +kernel

/-- The DRAM channels are up and one brick is loaded. -/
def loadedUp : State := { dramUp with cfg.loaded := 1 }

theorem witness_CaptureCommands :
    (opened.power.mode ≠ .hold ∧ opened.isMember = false ∧ opened.dbg.freeze = 0 ∧ opened.dbg.lanesFrozen = false) ∧
    admits cardCapTake (cmd ([2] ++ List.replicate 31 0)) loadedUp = true ∧
    (let s : State := { loadedUp with cap.stopped := BitVec.allOnes 64 };
      admits cardCapRestore (cmd ([0, 0, 0, 0, 0, 0, 0, 0] ++ [0, 0x10, 0, 0, 0, 0, 0, 0] ++ [0, 0, 1, 0, 0, 0, 0, 0])) s = true) ∧
    admits cardCapReadback (cmd [7, 1, 0, 0, 0xFF, 0x63, 0, 0, 1, 0, 0, 0, 0, 0, 0, 0]) opened = true ∧
    opened.secAxis ≠ .sealed ∧
    admits cardCapTraceSet (cmd ([7, 0] ++ List.replicate 26 0)) opened = true ∧
    admits cardCapTraceSet (cmd ([7, 1] ++ List.replicate 26 0)) opened = true ∧
    admits cardCapTraceSet (cmd ([7, 2] ++ List.replicate 22 0 ++ [1, 0, 0, 0, 3, 0, 0, 0])) opened = true ∧
    (let s := dramUp.setColl 7 fun c => { c with taps := [(0, 1)] };
      admits cardCapTraceSet (cmd ([7, 3, 1, 0, 0, 0, 0, 0] ++ List.replicate 8 0 ++ [0, 0, 0, 1, 0, 0, 0, 0] ++ [0, 0, 0, 0])) s
        = true) ∧
    admits cardCapTriggerSet (cmd ([15, 1, 0, 1, 1, 0, 0, 0] ++ [1, 0, 0xFF, 0xFF, 0xFF, 0xFF, 0xFF, 0xFF] ++ List.replicate 16 0))
      opened = true ∧
    (∀ op ∈ [0, 1], admits cardCapClockRun (cmd ([op] ++ List.replicate 23 0)) opened = true) ∧
    (∀ op ∈ [2, 4], admits cardCapClockRun (cmd ([op, 0, 0, 0, 0, 0, 0, 0, 9] ++ List.replicate 15 0)) opened = true) ∧
    admits cardCapClockRun (cmd ([6, 0, 5, 0, 0, 0, 0, 0] ++ List.replicate 8 0 ++ [0x20, 0, 0, 0, 0, 0, 0, 0])) opened = true ∧
    opened.cap.dutLines &&& ~~~opened.cap.stopped ≠ 0 ∧ admits cardCapStatus (cmd []) opened = true := by
  decide +kernel

/-- The end of the last section of a checkpoint. -/
theorem last_end (d : Nat) (ls : List Nat) :
    totalLength d (placeSections d ls) ≤ d + (ls.map (· + 4096)).sum := by
  suffices h : ∀ (ls : List Nat) (d : Nat) (p : Nat × Nat), (placeSections d ls).getLast? = some p →
      p.1 + p.2 ≤ d + (ls.map (· + 4096)).sum by
    unfold totalLength
    cases e : (placeSections d ls).getLast? with
    | none => simp
    | some p => simpa using h ls d p e
  intro ls
  induction ls with
  | nil => intro d p h; simp [placeSections] at h
  | cons n ns ih =>
    intro d p h
    have r : roundUp 4096 d ≤ d + 4096 := by unfold roundUp; omega
    simp only [placeSections, List.getLast?_cons, Option.some.injEq] at h
    simp only [List.map_cons, List.sum_cons]
    cases e : (placeSections (roundUp 4096 d + n) ns).getLast? with
    | none => simp [e] at h; subst h; simp; omega
    | some q =>
      simp [e] at h; subst h
      have := ih _ _ e
      omega

/-- The area that a checkpoint of one loaded brick needs fits 4 GiB. -/
theorem area_suffices {s : State} (full : Bool) (h : s.cfg.loaded = 1) (hs : (s.secAxis == .sealed) = false)
    (hb : s.isMember = false) :
    s.requiredLength full ≤ 0x100000000 := by
  have m (p : Nat → Bool) : ((List.range 25600).filter p).length ≤ 25600 := by
    simpa using List.length_filter_le p (List.range 25600)
  have b : bricksOf s.cfg.loaded.toNat = [0] := by rw [h]; decide
  have q : seamsIn s.cfg.loaded.toNat = [] := by rw [h]; decide
  have hlen : (s.requiredLengths full).map (storedLength (s.secAxis == .sealed)) = s.requiredLengths full := by
    have e : storedLength (s.secAxis == .sealed) = id := by rw [hs]; rfl
    rw [e, List.map_id]
  have hm := m (s.marked 0)
  have hu := m fun k => (s.slabCfg 0 k).use == 1
  unfold State.requiredLength
  rw [hlen]
  refine Nat.le_trans (last_end _ _) ?_
  clear hlen
  unfold State.requiredLengths
  dsimp only
  rw [b, q, hb]
  simp only [List.map_cons, List.map_nil, Bool.false_and, Bool.false_eq_true, if_false,
    List.append_nil, List.filter_cons, List.filter_nil]
  cases full <;> split <;> simp <;> omega

/-- A CAP_TAKE of an area of 4 GiB at 0x1000; kind, when, scope and resume lead. -/
def taking (kind when_ resume at_ : Nat) : Cmd :=
  cmd [kind, when_, 0, resume, 0, 0, 0, 0, at_, 0, 0, 0, 0, 0, 0, 0, 0, 0x10, 0, 0, 0, 0, 0, 0, 0, 0, 0, 0, 1, 0, 0, 0]

/-- A CAP_TAKE that fits its area is admitted. -/
theorem take_admitted {c : Cmd} (full : Bool) (h0 : fieldAt c.params 0 1 = if full then 1 else 0)
    (h : let u := checked cardCapTake c loadedUp
      fieldAt c.params 24 8 = 0x100000000 ∧ fieldAt c.params 2 1 = 0 ∧ fieldAt c.params 16 8 = 0x1000 ∧
      (fieldAt c.params 1 1 = 2 ∨ u.cap.edges.toNat < fieldAt c.params 8 8) ∧ fieldAt c.params 1 1 ≤ 2 ∧ fieldAt c.params 3 1 ≤ 1 ∧
      zeroAt c.params 4 4 = true ∧ u.dram.installed.toNat = 0x4000000000 ∧ u.cfg.loaded = 1 ∧ (u.secAxis == .sealed) = false ∧
      u.isMember = false)
    (hpre : (expireHeld loadedUp).admits { opcode := cardCapTake.opcode, cmd := c } = true)
    (hperm : (let u := checked cardCapTake c loadedUp
      sizeOk cardCapTake c && flagsOk c && portPermits cardCapTake c.port u && modePermits cardCapTake c u &&
      !((u.cport c.port.val).lockedOut && (cardCapTake.critical || c.trailer))) = true)
    (ht : (!c.trailer && !(checked cardCapTake c loadedUp).secAxis != .blank && !c.lockEnd) = true)
    (hs : ((commonState cardCapTake c none (checked cardCapTake c loadedUp)).isNone &&
      !(checked cardCapTake c loadedUp).evr.readonly) = true) : admits cardCapTake c loadedUp = true := by
  obtain ⟨h1, h2, h3, h4, h5, h6, h7, h8, h9, h10, h11⟩ := h
  simp only [Bool.and_eq_true, Bool.not_eq_true'] at ht hs
  have w : takeWrong c.params (checked cardCapTake c loadedUp) = none := by
    have a := area_suffices full h9 h10 h11
    have e : (decide (fieldAt c.params 0 1 = 1)) = full := by rw [h0]; cases full <;> rfl
    have k : fieldAt c.params 0 1 ≤ 2 ∧ fieldAt c.params 0 1 ≠ 2 := by rw [h0]; cases full <;> decide
    have b := Nat.not_lt.2 a
    rw [← e] at b
    unfold takeWrong
    simp only [h1, h2, h3, h5, h6, h7, h8, b, k, decide_true, Bool.and_true,
      if_false, Nat.zero_ne_one, Nat.reduceMod, ne_eq, not_true_eq_false, decide_false, Bool.false_or]
    rcases h4 with h4 | h4 <;> simp [h4, Nat.not_le.2]
  have p : (cardCapTake.param c (checked cardCapTake c loadedUp)).isNone = true := by
    show (inRange (takeWrong _ _).isNone).isNone = true
    rw [w]; rfl
  have q : admission cardCapTake c loadedUp = some (none, checked cardCapTake c loadedUp) := by
    refine admit_of_checks hpre hperm ?_ ht.2 (by simp [p, hs, lacksLog])
    unfold checkTrailer
    simp [ht, show cardCapTake.cls ≠ .maker from nofun]
  unfold admits; rw [q]; rfl

theorem witness_CaptureCommands_take : admits cardCapTake (taking 0 2 0 0) loadedUp = true :=
  take_admitted false (by decide +kernel) (by decide +kernel) (by decide +kernel) (by decide +kernel) (by decide +kernel)
    (by decide +kernel)

theorem witness_CaptureCommands_take_at : admits cardCapTake (taking 1 1 1 100) loadedUp = true :=
  take_admitted true (by decide +kernel) (by decide +kernel) (by decide +kernel) (by decide +kernel) (by decide +kernel)
    (by decide +kernel)

/-- The part is Sealed, with a session that holds a capture key. -/
def sealedSession : State :=
  { opened with sec.stored := .sealed
                sec.session := some { isImplicit := false, port := 0, source := 0, keyId := 3, captureKey := some [] } }

theorem witness_CaptureCommands_sealed :
    sealedSession.sealKey = some ([], 3) ∧
    admits cardCapReadback (cmd [7, 0, 0, 0, 0, 0, 0, 0, 56, 0, 0, 0, 0, 0, 0, 0]) sealedSession = true := by
  decide +kernel

/-- The state in which a checkpoint of a part without an image lies at 0x1000. -/
def checkpointed : State :=
  let s := capturing .lightDrain false false
  let k : Capture := { take := take false false }
  let q := checkpointSections k s
  (storeCounted 3 0x1000 (leBytes 4 1 ++ (encodeCheckpoint k q.1 q.2).drop 4) q.2).2.2

theorem witness_CaptureCommands_restore :
    (match (readHeader restore 0x10000 checkpointed).1 with | .inr h => h.mask == 0 | .inl _ => false) = true ∧
    (let s : State := { dramUp with cap.restore := some restore, dram.mem := (List.range 512).map fun i => (0x1000 + i, some 0) };
      match readHeader restore 0x10000 s with
      | (.inl (_, cause), v) => decide (cause ≠ 10 ∧ v.cap.restore = some restore)
      | _ => false) = true := by
  decide +kernel

/-! ### The bond link (08) -/

/-- A running domain of two members, this part the second; beat 4 runs. -/
def inDomain (f : BondGroup → BondGroup) : State :=
  { opened with
    bond.state := .running, bond.pipelined := true, bond.beat := 4, bond.txBeat := 4, bond.members := 3, bond.device := 1
    bond.resumeMs := 100
    bond.groups := [(31, f { state := .up, use := true, k := 3, usable := 0xFF, rxBeat := 3, incoming := [(3, [7])] })] }

def frame : Frame :=
  { kind := 0, seq := 0, ackValid := false, ack := 0, beat := 4, session := 0, payload := [9], op := none }

def domOp : DomOp := { op := 1, origin := 0, opSeq := 1, arg := 0, target := 9 }

theorem witness_BondBeatsAndFrames :
    (let s := inDomain id;
      s.power.holdDue = none ∧ s.frozen.getLsbD 2 = s.dbg.lanesFrozen ∧
      s.gatePasses = true ∧ s.frozen.getLsbD 3 = false ∧ (∀ h, h < 32 → (s.grp h).bufferFull = false ∧ (s.grp h).txq = []) ∧
        s.bond.ops = [] ∧ s.cap.stopBeat = none ∧ s.bond.pipelined = true ∧ s.bond.txBeat.toNat ≤ s.bond.beat.toNat ∧
        s.bond.beat.toNat < 2 ^ 64 - 1 ∧ (s.grp 31).use = true ∧ (s.grp 31).incoming = [(3, [7])] ∧
        (s.grp 31).k.toNat ≤ s.bond.beat.toNat + 1 ∧ (3 : W64).toNat + (s.grp 31).k.toNat = s.bond.beat.toNat + 2) ∧
    ((inDomain fun x => { x with k := 6 }).bond.beat.toNat + 1 < (6 : Byte).toNat) ∧
    ((inDomain fun x => { x with rxBeat := 2 }).gatePasses = false ∧ opened.gatePasses = false) ∧
    (let x := (inDomain fun x => { x with replayBuf := [frame] }).grp 31;
      x.state = .up ∧ x.replayBuf = [frame] ∧ x.replayed = [] ∧ x.holding = false ∧ x.txq = [] ∧ x.queued = []) ∧
    (let s := inDomain id;
      s.bond.seenOps.contains (opKey domOp) = false ∧ s.cap.stopped.getLsbD s.bond.beatLine.toNat = false ∧
        s.bond.state = .running ∧ isOperand domOp = false ∧ s.bond.acted = [] ∧
        ({ s with bond.seenOps := [opKey domOp] } : State).bond.seenOps.contains (opKey domOp) = true) ∧
    ((inDomain id).isMember = true ∧ (inDomain id).isRoot = false ∧ ({ inDomain id with bond.device := 0 } : State).isRoot = true) ∧
    (opened.grp 31).state ≠ .up ∧ opened.isMember = false := by
  decide +kernel

/-- Some bytes are words of a frame and a CRC after them. -/
def framed (bytes : List Byte) : Bool :=
  bytes.take (bytes.length - 8) ++ leBytes 8 (BitVec.ofNat 64 (fieldAt bytes (bytes.length - 8) 8)).toNat == bytes

theorem witness_BondBeatsAndFrames_frames :
    let x := (inDomain id).grp 31
    (let f := frameOf (wireBytes frame);
      framed (wireBytes frame) = true ∧ x.state = .up ∧ frameGood (wireBytes frame) = true ∧ f.kind = 0 ∧ f.session = x.session ∧ f.ackValid = false ∧
        f.seq = x.recvSeq ∧ f.beat = (x.rxBeat + 1).truncate 32 ∧ f.op = none ∧ (inDomain id).cap.draining = false) ∧
    (let bytes := wireBytes { frame with seq := 2047 };
      framed bytes = true ∧ frameGood bytes = true ∧ 0 < ((frameOf bytes).seq - x.recvSeq).toNat ∧ ((frameOf bytes).seq - x.recvSeq).toNat < 2048) ∧
    (let bytes := wireBytes { frame with seq := 2048 };
      framed bytes = true ∧ frameGood bytes = true ∧ 2048 ≤ ((frameOf bytes).seq - x.recvSeq).toNat) ∧
    (let bytes := wireBytes { frame with kind := 3, ackValid := true };
      framed bytes = true ∧ frameGood bytes = true ∧ (frameOf bytes).session = x.session ∧ (frameOf bytes).ackValid = true ∧ (frameOf bytes).kind = 3 ∧
        x.txq = [] ∧ x.queued = []) ∧
    (let bytes := (wireBytes frame).set 16 0;
      framed bytes = true ∧ frameGood bytes = false ∧ (frameOf bytes).kind ≠ 3) := by
  decide +kernel

/-- The lanes of group 31 carry the bond. -/
def bonded (st : LaneState) (s : State) : State :=
  { s with lanes.lanes := (List.range 8).map fun i => (248 + i, { use := 1, state := st }) }

theorem witness_BondFaultsAndTraining :
    (let s := bonded .up (inDomain fun x => { x with replayBuf := [frame] });
      s.power.holdDue = none ∧ (∀ h, h < 32 → (s.grp h).opsOut = [] ∧ (s.grp h).txq = []) ∧
      (s.grp 31).state = .up ∧ (s.grp 31).holding = false ∧ (s.grp 31).replayBuf ≠ [] ∧ (s.grp 31).aliveCount ≥ 6 ∧
        s.bond.resumeMs ≠ 0 ∧ s.isMember = true ∧
        (∀ l ∈ groupLanes (31 : Fin 32), (s.lane l).retrainTimes = [] ∧ (s.lane l).state = .up) ∧ s.bond.state = .running ∧
        ∀ h, h < 32 → (s.grp h).state ≠ .retired ∧ (s.grp h).state ≠ .peerLeft ∧ (s.grp h).state ≠ .held) ∧
    (let s := bonded .retraining (inDomain fun x => { x with state := .peerHold, resuming := true, usable := 0x1F });
      (s.grp 31).state = .peerHold ∧ (s.grp 31).resuming = true ∧ (s.grp 31).usableCount < 6 ∧ (s.grp 31).aliveCount ≥ 6 ∧
        ∀ l ∈ groupLanes (31 : Fin 32), (s.lane l).state = .retraining) ∧
    (let s := bonded .up (inDomain id);
      (∀ h, h < 32 → (s.grp h).state ≠ .down) ∧ s.cap.stopped.getLsbD s.bond.beatLine.toNat = false) ∧
    (let s := bonded .idle (inDomain fun x => { x with state := .peerHold, usable := 0 });
      (s.grp 31).state = .peerHold ∧ (s.grp 31).resuming = false ∧ (s.grp 31).usableCount < 6 ∧ s.power.mode ≠ .hold ∧
        (s.lane 255).state = .idle) ∧
    (let x := (inDomain fun x => { x with state := .peerHold }).grp 31;
      x.state = .peerHold ∧ 6 ≤ x.usableCount) := by
  decide +kernel

theorem witness_BondFaultsAndTraining_ends :
    (let s := inDomain fun x => { x with state := .down };
      (s.grp 31).state = .down ∧ (∀ h, h < 32 → (s.grp h).state = .down → s.resumeEnd 31 ≤ s.resumeEnd h) ∧
        ∀ c ∈ s.cap.runCmds, c.seq = none) ∧
    (∀ h, h < 32 → (opened.grp h).state ≠ .down) ∧ ((inDomain id).grp 31).state.trained = true ∧
    (let s := { inDomain (fun x => { x with state := .training }) with bond.state := .training };
      s.bond.state = .training ∧ (s.grp 31).state = .training ∧ s.laneDieOut (31 / 4) = false ∧
        s.cap.dutLines.getLsbD s.bond.beatLine.toNat = true ∧ (∀ h, h < 32 → (s.grp h).state ≠ .down) ∧
        ∀ h, h < 32 → (s.grp h).state ≠ .retired ∧ (s.grp h).state ≠ .peerLeft ∧ (s.grp h).state ≠ .held) := by
  decide +kernel

/-- A stopped domain in which BND_RELAY to device 0 waits for its reply; its inner packet has opcode 1, source and tag 2, and
these flags. -/
def relayed (flags : Nat) (f : BondGroup → BondGroup) : State :=
  { inDomain f with
    bond.state := .stopped
    bond.routes := [(0, 32)]
    intake.busy := some
      { packet := { opcode := 0x0A14, cmd := cmd ([0, 0, 0, 0, 1, 0, 2, 0, 0, 0, 0, 0, flags, 0, 0, 0, 0, 0, 0, 0]) }, auth := none } }

def relaying : State := relayed 0 id

theorem witness_BondTunnelsAndRelays :
    (let s := relaying;
      (1 : BitVec 6) = s.bond.device ∧ (0 : BitVec 6) ≠ s.bond.device ∧ SMap.look 0 s.bond.routes 0 = 32 ∧
        SMap.look 0 s.bond.routes 5 = 0 ∧ (s.grp (32 - 1)).txq = [] ∧ (s.grp (32 - 1)).state = .up ∧ (s.grp (32 - 1)).holding = false ∧
        s.bond.state ≠ .running ∧ (s.grp (32 - 1)).bufferFull = false ∧
        (s.grp (32 - 1)).tunnels.length + (s.grp (32 - 1)).forwards.length < 64 ∧ (s.grp 31).queued = [] ∧
        (s.grp 31).tunnels.contains req0 = false ∧ (s.grp 31).forwards.find? (·.1 == req0) = none ∧
        s.relay = some (0, 1, 2, 0) ∧ (s.intake.busy.map (·.mute)) = some false) ∧
    ((relayed 16 id).relay = some (0, 1, 2, 16) ∧ (16 : Nat).testBit 4 = true) ∧
    (let x := (relayed 0 fun x => { x with replayBuf := List.replicate 256 frame }).grp 31;
      x.bufferFull = true ∧ x.txq = [] ∧ x.state = .up ∧ x.holding = false) ∧
    (let x := (relayed 0 fun x => { x with tunnels := List.replicate 64 req0 }).grp 31;
      x.state = .up ∧ 64 ≤ x.tunnels.length + x.forwards.length) ∧
    (let x := (relayed 0 fun x => { x with state := .down }).grp 31;
      x.state ≠ .up) := by
  decide +kernel

theorem witness_BondTunnelsAndRelays_responses :
    (let x := (inDomain fun x => { x with tunnels := [req0] }).grp 31;
      x.queued = [] ∧ x.tunnels.contains req0 = true) ∧
    (let s := { relaying with bond.groups := [(0, { state := .up }), (31, { state := .up, forwards := [(req0, 0)] })] };
      (s.grp 31).queued = [] ∧ (s.grp 31).tunnels.contains req0 = false ∧
        (s.grp 31).forwards.find? (·.1 == req0) = some (req0, 0) ∧ 0 ≠ (31 : Fin 32).val ∧ (s.grp 0).txq = [] ∧
        (s.grp 0).state = .up ∧ (s.grp 0).holding = false ∧ (s.grp 0).bufferFull = false) ∧
    (let reply : List Byte := [2, 0, 0, 0, 0, 0, 0, 0, 0, 0, 1, 0, 0, 0, 0, 0];
      fieldAt reply 10 2 = 1 ∧ fieldAt reply 0 2 = 2 ∧ fieldAt reply 2 2 ≠ 1 ∧ reply.length ≤ 65536) ∧
    (let reply : List Byte := [2, 0, 1, 0, 0, 0, 0, 0, 0, 0, 1, 0, 0, 0, 0, 0];
      fieldAt reply 10 2 = 1 ∧ fieldAt reply 0 2 = 2 ∧ fieldAt reply 2 2 = 1 ∧ reply.length ≤ 65536) ∧
    (let e : Completion := entry false true (.relay 0 2);
      e.done = false ∧ e.work = .relay 0 (BitVec.ofNat 16 (fieldAt [2, 0, 0, 0] 0 2)) ∧
        ({ opened with intake.table := [e] } : State).intake.table = [e]) ∧
    (let s : State := { opened with bond.relayLate := [(0, 1, 2)] };
      s.relay = none ∧ s.bond.relayLate = [(0, BitVec.ofNat 16 1, BitVec.ofNat 16 2)]) ∧
    (0x400000000000 ≤ (0x400000000000 : Addr).toNat ∧ (0x4FFFFFFFFFFF : Addr).toNat < 0x500000000000 ∧
      (0x3FFFFFFFFFFF : Addr).toNat < 0x400000000000) := by
  decide +kernel

theorem witness_BondTunnelsAndRelays_long :
    let reply : List Byte := [2, 0, 0, 0, 0, 0, 0, 0, 0, 0, 1, 0] ++ List.replicate 65536 0
    fieldAt reply 10 2 = 1 ∧ fieldAt reply 0 2 = 2 ∧ fieldAt reply 2 2 ≠ 1 ∧ 65536 < reply.length := by
  exact ⟨rfl, rfl, nofun, by rw [List.length_append, List.length_replicate]; decide⟩

/-- BND_DOMAIN_SET of a domain of two members, this part device 1, with group 31. -/
def domainSet : Cmd :=
  cmd ([0, 0, 1, 1, 5, 0, 0, 0] ++ [3, 0, 0, 0, 0, 0, 0, 0] ++ [100, 0, 0, 0] ++ [0, 2, 2, 0] ++ List.replicate 16 0 ++
    List.replicate 248 0 ++ [1, 0, 0, 31, 2, 64, 64, 0] ++ List.replicate 64 255)

/-- The same with the device number of the straps. -/
def domainStraps : Cmd := { domainSet with body := domainSet.body.set 1 1 }

theorem witness_BondCommands :
    admits cardBndDomainSet domainSet opened = true ∧
    (let s : State := { opened with svp.pins := (List.range 6).map fun i => (i, BitVec.ofNat 32 (0xDA + i)), svp.levels := [(0, true)] };
      s.svp.bndId = some 1 ∧ fieldAt domainStraps.params 1 1 = 1 ∧ admits cardBndDomainSet domainStraps s = true) ∧
    fieldAt domainSet.params 0 1 = 0 ∧ fieldAt domainSet.params 1 1 = 0 ∧ fieldAt domainSet.params (40 + 8 * 31) 1 = 1 ∧
    fieldAt domainSet.params 40 1 = 0 ∧
    admits cardBndDomainSet (cmd (1 :: List.replicate 359 0)) opened = true ∧
    (let s := { opened with
        bond.state := .configured, bond.groups := [(31, { state := .configured, use := true })], clk.derated := false
        lanes.refs := [(7, { freqA := 1 })] };
      admits cardBndTrain (cmd [0, 0, 0, 0x80, 0, 0, 0, 0]) s = true ∧ (s.grp 31).use = true ∧
        (fieldAt (cmd [0, 0, 0, 0x80, 0, 0, 0, 0]).params 0 4).testBit 31 = true ∧
        (fieldAt (cmd [0, 0, 0, 0x80, 0, 0, 0, 0]).params 0 4).testBit 30 = false ∧ s.laneDieOut (31 / 4) = false ∧
        ∀ l ∈ groupLanes 31, (s.lane l).state ≠ .retired ∧ (s.laneRef l (s.lane l).refSel).2 ≠ 2) ∧
    (let s := { opened with
        bond.state := .configured, bond.groups := [(31, { state := .configured, use := true })], clk.derated := false
        lanes.refs := [(7, { freqA := 1, stateA := 2 })] };
      admits cardBndTrain (cmd [0, 0, 0, 0x80, 0, 0, 0, 0]) s = true ∧
        ∀ l ∈ groupLanes 31, (s.laneRef l (s.lane l).refSel).2 = 2) ∧
    admits cardBndWindowSet (cmd [15, 1, 63, 0, 0, 0, 0, 0, 0, 0, 0, 0, 0, 0xFF, 0, 0]) opened = true ∧
    (admits cardBndResumeSet (cmd [0x60, 0xEA, 0, 0]) opened = true ∧ ∀ g, g < 32 → (opened.grp g).state ≠ .down) ∧
    (let s := { relaying with intake.busy := none };
      admits cardBndRelay (cmd ([0, 0, 0, 0, 1, 0, 2, 0] ++ List.replicate 12 0)) s = true ∧
        SMap.look 0 s.bond.routes 0 ≠ 0 ∧ (s.grp (SMap.look 0 s.bond.routes 0 - 1)).state = .up ∧
        (s.grp (SMap.look 0 s.bond.routes 0 - 1)).txq = [] ∧ (s.grp (SMap.look 0 s.bond.routes 0 - 1)).holding = false ∧
        (s.grp (SMap.look 0 s.bond.routes 0 - 1)).bufferFull = false ∧ s.bond.state ≠ .running) ∧
    (let s := { relayed 0 (fun x => { x with state := .down }) with intake.busy := none };
      admits cardBndRelay (cmd ([0, 0, 0, 0, 1, 0, 2, 0] ++ List.replicate 12 0)) s = true ∧
        (s.grp (SMap.look 0 s.bond.routes 0 - 1)).state ≠ .up) ∧
    admits cardBndRelay (cmd ([0, 0, 0, 0, 1, 0, 2, 0] ++ List.replicate 12 0)) (inDomain id) = true ∧
    admits cardBndStatus (cmd []) opened = true := by
  decide +kernel

/-! ### Lanes, PCIe and Ethernet (09) -/

/-- One lane as given, everything else as after reset. -/
def withLane (l : Nat) (x : Lane) : State := { opened with lanes.lanes := [(l, x)] }

/-- A bring-up set of type `kind` with rate 3 and preset 4 as the peer sends it, from negative running disparity. -/
def setOf (kind : Nat) : List (BitVec 10) := (encodeSet false (bringupChars kind 5 1 3 4 9 0)).1

/-- Some symbols are a set that passes. -/
def passes (symbols : List (BitVec 10)) : Bool :=
  let d := decodeSymbols false symbols
  let chars := d.1.map (·.1)
  d.2.1 == 0 && d.1.length == 16 && d.1.head? == some (0xBC, true) && (d.1.drop 1).all (!·.2) &&
    (Crypto.crc16 ((chars.drop 1).take 13)).toNat == fieldAt chars 14 2

theorem witness_LanesComeUpAndRetrain_sets :
    passes (setOf 1) = true ∧ passes (setOf 2) = true ∧ passes ((setOf 1).take 15) = false ∧
    (setOf 1).head? = encodeControl false 0xBC ∧
    fieldAt ((decodeSymbols false (setOf 2)).1.map (·.1)) 1 1 = 2 ∧ fieldAt ((decodeSymbols false (setOf 2)).1.map (·.1)) 4 1 = 3 := by
  decide +kernel

theorem witness_LanesComeUpAndRetrain :
    (opened.lanes.waits = [] ∧ opened.power.holdDue = none ∧ (opened.grp 31).holding = false ∧ opened.bond.resumeMs ≠ 0) ∧
    (opened.lane 255).state ≠ .up ∧
    (let s := { withLane 255 { state := .up, use := 1 } with bond.groups := [(31, { state := .up, usable := 0xFF })] };
      (s.lane 255).state = .up ∧ (s.lane 255).loop = 0 ∧ (s.lane 255).recent s.time < 2 ∧ (s.lane 255).use = 1 ∧
        (s.grp 31).state ≠ .peerHold ∧ (s.grp 31).replayBuf = [] ∧
        6 ≤ popCount (setBit (s.grp 31).usable (255 % 8) false).toNat 8 ∧ s.lanes.waits = []) ∧
    (let s := { withLane 255 { state := .up, use := 1 } with bond.groups := [(31, { state := .peerHold })] };
      (s.lane 255).state = .up ∧ (s.lane 255).loop = 0 ∧ (s.lane 255).use = 1 ∧ (s.grp 31).state = .peerHold) ∧
    (let x := (withLane 255 { state := .up, use := 4, retrainTimes := [0, 0] }).lane 255;
      x.state = .up ∧ x.loop = 0 ∧ 2 ≤ x.recent 0 ∧ 4 ≤ x.use.toNat) ∧
    (let s := { withLane 255 { state := .retraining, use := 1 } with bond.groups := [(31, { state := .down, usable := 0x1F })] };
      (s.lane 255).state = .retraining ∧ (s.lane 255).use = 1 ∧ (s.grp 31).state.trained = true ∧ (s.grp 31).replayBuf = [] ∧
        6 ≤ popCount (setBit (s.grp 31).usable (255 % 8) true).toNat 8) ∧
    (let x := (withLane 255 { state := .retraining, use := 4, bringup := true }).lane 255;
      4 ≤ x.use.toNat ∧ x.bringup = true) := by
  decide +kernel

theorem witness_LanesComeUpAndRetrain_bringup :
    (let x := (withLane 255 { state := .bringup, use := 1, step := 1 }).lane 255;
      x.state = .bringup ∧ x.use ≠ 3 ∧ x.step < 5 ∧ x.step = 1 ∧ x.good + 1 < 16 ∧ x.locked = false ∧
        ([0] : List (BitVec 10)).head? ≠ encodeControl false 0xBC ∧ ([0] : List (BitVec 10)).head? ≠ encodeControl true 0xBC) ∧
    (let x := (withLane 255 { state := .bringup, use := 1, step := 1, good := 15, locked := true }).lane 255;
      x.locked = true ∧ false = x.rxRd ∧ x.step = 1 ∧ 16 ≤ x.good + 1 ∧ x.acks = 0) ∧
    (let x := (withLane 255 { state := .bringup, use := 1, step := 2, acks := 6, acksSent := 7 }).lane 255;
      x.step = 2 ∧ x.acks + 1 < 8 ∧ 8 ≤ x.acksSent + 1) ∧
    (let s := { withLane 255 { state := .bringup, use := 1, step := 2, acks := 7, acksSent := 7, rate := 11 } with
        bond.groups := [(31, { state := .training })] };
      (s.lane 255).step = 2 ∧ 8 ≤ (s.lane 255).acks + 1 ∧ 8 ≤ (s.lane 255).acksSent + 1 ∧ (s.lane 255).use = 1 ∧
        (s.lane 255).rate ≠ 3 ∧ (s.grp 31).state = .training) ∧
    (let x := (withLane 255 { state := .bringup, use := 5, step := 2, acks := 7, acksSent := 7 }).lane 255;
      x.step = 2 ∧ 8 ≤ x.acks + 1 ∧ 8 ≤ x.acksSent + 1 ∧ x.use ≠ 1) ∧
    (let x := (withLane 255 { state := .bringup, use := 4, step := 5 }).lane 255; x.state = .bringup ∧ x.step = 5 ∧ x.use ≠ 1) := by
  decide +kernel

theorem witness_LanesComeUpAndRetrain_blocks :
    (let x := (withLane 255 { use := 4, hdrRun := 63 }).lane 255;
      x.loop ≠ 3 ∧ x.locked = false ∧ (let b := decodeBlock (pam4 x.rate.toNat) (encodeBlock false true 5 0).1 x.descrambler;
        b.1 ≠ 0 ∧ b.1 ≠ 3 ∧ 64 ≤ x.hdrRun + 1)) ∧
    (let x := (withLane 255 { state := .up, use := 4, locked := true, hdrBad := List.replicate 63 true }).lane 255;
      x.locked = true ∧ x.state = .up ∧ x.loop = 0 ∧ x.recent 0 < 2 ∧ 4 ≤ x.use.toNat ∧
        15 ≤ ((x.hdrBad.take 63).filter id).length ∧ (decodeBlock (pam4 x.rate.toNat) [] x.descrambler).1 = 0) ∧
    (let x := (withLane 255 { prbsChk := true }).lane 255; x.prbsChk = true ∧ x.prbsLock = false) ∧
    (let x := (withLane 255 { prbsChk := true, prbsLock := true }).lane 255; x.prbsChk = true ∧ x.prbsLock = true) ∧
    (opened.lane 255).prbsChk = false ∧
    (let s := { withLane 255 { state := .noRef, use := 4 } with lanes.refs := [(7, { freqA := 1, stateA := 2 })] };
      (s.refs 7).freqA ≠ 0 ∧ (s.refs 7).freqB = 0 ∧ (s.refs 7).stateA = 2 ∧ (s.lane (32 * 7 + 31)).refSel = false ∧
        (s.lane (32 * 7 + 31)).use ≠ 0 ∧ (s.lane (32 * 7 + 31)).state = .noRef) ∧
    (let s := { withLane 255 { state := .up, use := 4 } with lanes.refs := [(7, { freqA := 1, stateA := 1 })] };
      (s.refs 7).freqA ≠ 0 ∧ (s.refs 7).stateA ≠ 2 ∧ (s.lane (32 * 7 + 31)).state = .up) := by
  decide +kernel

/-- Controller 1's link is up, with bus mastering on, and its lanes are in PCIe use. -/
def linked : State :=
  { opened with
    lanes.pcie := [(1, { ltssm := 3, width := 4, rate := 5, bme := true, b4base := 0x100000000 })]
    lanes.lanes := (List.range 16).map fun i => (128 + i, { use := 2, state := .up }) }

def hostReq (op : GOp) : GReq := { req0 with op, addr := 0x410000000000 }

def scan : Scan := { port := 0, source := 0, tag := 9, lane := 255, points := 1, addr := 0x1000 }

/-- Lane 252 is the lowest of an Ethernet port of 4 lanes. -/
def ethernet (up : Bool) : State := withLane 252 { use := 3, state := .bringup, ethWidth := 4, ethUp := up }

theorem witness_LinksToHostAndNetwork :
    ((linked.pcie 1).enable = true ∧ (linked.pcie 1).ltssm ≠ 8 ∧ linked.lanes.waits = [] ∧ linked.laneDieOut (4 * 1) = false ∧
      (linked.refs (4 * 1)).stateA ≠ 2) ∧
    (∀ i, i < 16 → (linked.lane (128 + i)).use = 2 ∧ (linked.lane (128 + i)).state = .up ∧ (linked.lane (128 + i)).loop = 0 ∧
      (linked.lane (128 + i)).recent linked.time < 2) ∧
    (let s := linked.setPcie 1 fun x => { x with enable := false }; (s.pcie 1).enable = false) ∧
    (let h : Held := { packet := asking 1 0x0110, auth := none };
      h.packet.cmd.port = Fin.ofNat 8 (1 : Fin 2)) ∧
    ((linked.lane 143).scanBusy = false ∧ (linked.setLane 143 fun x => { x with scanBusy := true }).lane 143 ≠ linked.lane 143) ∧
    (let r := hostReq .read;
      r.addr.toNat / 2 ^ 40 % 2 = 1 ∧ r.op = .read ∧ (List.replicate 4 (0 : Byte)).length = r.len.toNat + 1 ∧
        (linked.pcie 1).outstanding.contains r = false ∧ ((linked.pcie 1).ltssm = 3 ∧ (linked.pcie 1).bme = true ∧
        (linked.pcie 1).d3hot = false) ∧ (opened.pcie 1).bme = false ∧
        ((linked.setPcie 1 fun x => { x with outstanding := [r] }).pcie 1).outstanding.contains r = true) ∧
    (((ethernet false).lane 252).ethWidth = 4 ∧ ((ethernet false).lane 252).ethUp = false ∧ (ethernet false).lanes.waits = [] ∧
      (ethernet false).laneDieOut (252 / 32) = false ∧
      (∀ i, i < 4 → ((ethernet false).lane (252 + i)).state ≠ .retired ∧ (ethernet false).laneRests (252 + i) = false ∧
        ((ethernet false).laneRef (252 + i) ((ethernet false).lane (252 + i)).refSel).2 ≠ 2) ∧ ((ethernet true).lane 252).ethUp = true) ∧
    opened.lanes.scans = [] := by
  decide +kernel

theorem witness_LinksToHostAndNetwork_scan :
    let s : State := { dramUp with lanes.scans := [scan] }
    let u : State := { s.setLane 255 (fun x => { x with scanBusy := false }) with lanes.scans := [] }
    s.lanes.scans = [scan] ∧ scan.lane = (255 : Fin 256).val ∧ (1 : W32).toNat = scan.points ∧ (0 : W32).toNat ≤ scan.points ∧
    ∀ n, n < 2 → (scanWrite scan.addr.toNat ((List.range (4 * n)).map (Config.freeByte s.freeNo)) u.stepFree).1 = 0 := by
  decide +kernel

theorem witness_LinkCodesReadBack :
    (encodeControl false 0xBC).isSome = true ∧ (encodeControl true 0x00).isSome = false ∧
    (let f : Frame := { kind := 0, seq := 1, ackValid := true, ack := 2, beat := 3, session := 4, payload := List.replicate 8 5
                        op := some { op := 1, origin := 2, opSeq := 3, arg := 4, target := 5 } };
      (f.op.isSome = true → f.kind = 0) ∧ f.payload.length + 16 < 65536) ∧
    (let f : Frame := { kind := 3, seq := 1, ackValid := false, ack := 0, beat := 0, session := 4, payload := [], op := none };
      (f.op.isSome = true → f.kind = 0) ∧ f.payload.length + 16 < 65536) := by
  decide +kernel

/-- Lane die 7 has a good reference of 100 MHz, lane die 4 too. -/
def refsGood : State := { opened with lanes.refs := [(4, { freqA := 1, stateA := 1 }), (7, { freqA := 1, stateA := 1 })] }

/-- LNS_CONFIG: kind, item, count, and from byte 8 on. -/
def lnsConfig (kind item count : Nat) (rest : List Nat) : Cmd :=
  cmd ([kind, 0, 0, 0, item, 0, count, 0] ++ rest ++ List.replicate (24 - rest.length) 0)

theorem witness_LaneCommands_config :
    admits cardLnsConfig (lnsConfig 0 252 4 [4, 13, 0, 10, 4, 31, 3, 1]) refsGood = true ∧
    admits cardLnsConfig (lnsConfig 0 252 4 [0, 0, 0, 0, 0, 31, 3, 0]) refsGood = true ∧
    admits cardLnsConfig (lnsConfig 0 252 4 [0xFF, 0, 0, 0, 0, 31, 3, 0]) refsGood = true ∧
    (let s := { refsGood with lanes.refs := [(7, { freqA := 1, stateA := 2 })] };
      admits cardLnsConfig (lnsConfig 0 255 1 [6, 14, 0, 10, 4, 31, 3, 0]) s = true ∧ (s.laneRef 255 false).2 = 2) ∧
    admits cardLnsConfig (lnsConfig 1 7 0 [3, 2, 3]) opened = true ∧ (opened.refs 7).freqA.toNat ≠ 2 ∧
    (let s := refsGood.setPcie 1 fun x => { x with enable := false };
      admits cardLnsConfig (lnsConfig 2 1 0 [1, 15, 4, 0, 0, 31, 3]) s = true ∧ (s.pcie 1).enable = false ∧
        ∀ i, i < 16 → (s.lane (128 + i)).state ≠ .retired) ∧
    admits cardLnsConfig (lnsConfig 2 1 0 [0, 15, 4, 0, 0, 31, 3]) refsGood = true ∧ (refsGood.pcie 1).enable = true ∧
    (let s := { refsGood with lanes.refs := [(7, { freqA := 2, stateA := 1 })] };
      admits cardLnsConfig (lnsConfig 3 252 4 [1, 14, 0, 0, 8, 31, 3, 0]) s = true ∧
        admits cardLnsConfig (lnsConfig 3 252 4 [0, 14, 0, 0, 8, 31, 3, 0]) s = true) := by
  decide +kernel

theorem witness_LaneCommands :
    (let s := withLane 255 { use := 5, state := .up };
      admits cardLnsLoop (cmd [255, 0, 1, 0, 3, 0, 0, 0]) s = true ∧
        ∀ a, a < 5 → admits cardLnsPrbs (cmd [255, 0, 1, 0, a, 5, 1, 0]) s = true) ∧
    admits cardLnsEyeScan (cmd ([255, 0, 1, 40, 0xE0, 64, 1, 0x81, 255, 1] ++ List.replicate 6 0 ++ [0, 0x10, 0, 0, 0, 0, 0, 0]))
      (withLane 255 { use := 4, state := .up, locked := true, rate := 13 }) = true ∧
    admits cardLnsStatus (cmd [0, 0, 0, 1]) opened = true ∧ admits cardLnsStatus (cmd [255, 0, 1, 0]) opened = true := by
  decide +kernel

/-! ### Grout (10) -/

def fromSteward (addr : Nat) : GReq := { req0 with src := stewardEp, addr := BitVec.ofNat 48 addr }

/-- An engine reads memory. -/
def fromEngine : GReq := { req0 with src := { x := 0, y := 0, ep := 0 } }

def gresp (r : GReq) : GResp := { req := r, status := 0, data := [1, 2, 3, 4], poison := 0 }

theorem witness_GroutTraffic_requests :
    (let r := fromSteward 0x20000000000;
      opened.endpointExists r.src = true ∧ opened.injectFrozen r = false ∧ opened.isDead r.src = false ∧
        opened.unitOut r.src = false ∧ opened.decode r.addr.toNat = .inl 5) ∧
    opened.endpointExists { x := 36, y := 0, ep := 0 } = false ∧
    (let s := { opened with grout.dead := [epKey stewardEp] }; s.isDead (fromSteward 0).src = true) ∧
    (let s := (opened.setUnit 0 fun x => { x with state := .fenced });
      s.decode 0x100000000000 = .inr { ep := { x := 4, y := 0, ep := 1 }, target := some 9 } ∧
        s.routeBlocked stewardEp { x := 4, y := 0, ep := 1 } = false ∧ s.unitOut { x := 4, y := 0, ep := 1 } = true) ∧
    (let s := opened.setDie 0 fun d => { d with held := true };
      s.decode 0x100000000000 = .inr { ep := { x := 4, y := 0, ep := 1 }, target := some 9 } ∧
        s.routeBlocked stewardEp { x := 4, y := 0, ep := 1 } = true) ∧
    (let s := { opened with grout.dead := [epKey { x := 4, y := 0, ep := 1 }] };
      s.routeBlocked stewardEp { x := 4, y := 0, ep := 1 } = false ∧ s.unitOut { x := 4, y := 0, ep := 1 } = false ∧
        s.grout.flows = [] ∧ s.grout.probes = [] ∧ s.isDead { x := 4, y := 0, ep := 1 } = true) ∧
    (let r := fillHeader (fromSteward 0x100000000000);
      r.master.toNat < 2 ∧ (9 : Nat) ≤ 10 ∧ (opened.secAxis = .quarantine → r.master.toNat ≤ 3) ∧ opened.secAxis ≠ .quarantine ∧
        SMap.look [] opened.sec.caches (9 * 4096 + epKey { x := 4, y := 0, ep := 1 }) = [] ∧
        opened.isDead { x := 4, y := 0, ep := 1 } = false) ∧
    (let d : Dest := { ep := dramEp 0, target := some 8 };
      dramUp.decode 0 = .inr d ∧ dramUp.endpointExists fromEngine.src = true ∧ dramUp.injectFrozen fromEngine = false ∧
        dramUp.isDead fromEngine.src = false ∧ dramUp.unitOut fromEngine.src = false ∧ dramUp.isDead d.ep = false ∧
        dramUp.routeBlocked fromEngine.src d.ep = false ∧ dramUp.unitOut d.ep = false ∧ dramUp.inCarve 0 = false ∧
        SMap.look [] dramUp.sec.caches (8 * 4096 + epKey d.ep) = [] ∧ ¬ (fillHeader fromEngine).master.toNat < 2 ∧
        ∀ x ∈ ({ dramUp with sec.aclOpen := false } : State).aclEntries 8, ¬ x.rights.getLsbD 0 = true) ∧
    (let s := { dramUp with sec.acl := [(8 * 256 + 7, some { rights := 0x81, masterLo := 0x100, masterHi := 0x1BF, base := 0, limit := 0xFFFFFFFFFFFF })] };
      ∃ x ∈ s.aclEntries 8, x.rights.getLsbD 7 = true ∧ x.masterLo.toNat ≤ (fillHeader fromEngine).master.toNat ∧
        (fillHeader fromEngine).master.toNat ≤ x.masterHi.toNat ∧ x.base.toNat ≤ fromEngine.addr.toNat ∧
        fromEngine.addr.toNat + fromEngine.len.toNat ≤ x.limit.toNat ∧ x.rights.getLsbD 0 = true) := by
  decide +kernel

theorem witness_GroutTraffic_port :
    let s := imaged 0 8 8 []
    s.decode 0x200000000000 = .inr { ep := portEp 0, target := none } ∧ portOfEp (portEp 0) = some 0 ∧ s.portHeld 0 = false ∧
    s.portRuns 0 = true ∧ s.routeBlocked stewardEp (portEp 0) = false ∧ s.unitOut (portEp 0) = false ∧ s.isDead (portEp 0) = false := by
  refine ⟨by decide +kernel, by decide +kernel, by decide +kernel, ?_, by decide +kernel⟩
  have h : (imaged 0 8 8 []).portClkSel 0 = 0 := by
    show (imaged 0 8 8 []).courseField 0 8 8 273 0 6 = 0
    rw [field (v := 0) (by decide +kernel)]
  unfold State.portRuns
  rw [h]; decide +kernel

theorem witness_GroutTraffic :
    (let p := gresp (fillHeader (fromSteward 0));
      let s := { dramUp with grout.responses := [p] };
      s.grout.responses.contains p = true ∧ s.grout.flows = [] ∧ s.grout.probes = [] ∧ s.discarded p.req = none ∧
        s.isDead p.req.src = false ∧ portOfEp p.req.src = none ∧ laneDieOfEp p.req.src = none ∧
        ({ s with grout.dead := [epKey stewardEp] } : State).isDead p.req.src = true) ∧
    (let r := fillHeader req0;
      portOfEp r.src = some 0 ∧ ((opened.setPort 0 fun x => { x with iq := [(63, req0)] }).port 0).iq.find?
        (fun x => fillHeader x.2 == r) = some (63, req0)) ∧
    (let p := gresp { req0 with src := { x := 0, y := 7, ep := 3 }, master := 0x18 };
      portOfEp p.req.src = none ∧ laneDieOfEp p.req.src = none ∧ p.req.master = 0x18) ∧
    (let p := gresp { fromSteward 0 with master := 2, tag := 5 };
      let s := { opened with dbg.accBusy := true, dbg.accTag := 5, grout.responses := [p] };
      p.req.master = 2 ∧ s.dbg.accBusy = true ∧ p.req.tag = s.dbg.accTag ∧ p.status = 0 ∧ p.req.op = .read ∧
        s.grout.responses.contains p = true ∧ s.discarded p.req = none) ∧
    (let s := { opened with part.guestVariant := true, gst.isolated := true };
      s.grout.responses.contains (gresp (fromSteward 0x380000000000)) = false ∧ s.toGuest (fromSteward 0x380000000000) = true ∧
        s.gst.isolated = true) ∧
    opened.grout.waiting = [] ∧
    (opened.endpointExists stewardEp = true ∧ opened.isDead stewardEp = false ∧ opened.paused stewardEp = false) ∧
    ({ opened with grout.dead := [epKey stewardEp] } : State).isDead stewardEp = true := by
  decide +kernel

theorem witness_FencesAndGroutCommands :
    (let s := opened.setUnit 15 fun x => { x with state := .draining };
      (s.unit 15).state = .draining ∧ (unitRouters 15).contains 575 = true ∧ (s.unit 15).reqRouters.contains 575 = false ∧
        (s.unit 15).cmd = none) ∧
    (let s := opened.setUnit 15 fun x => { x with state := .draining, reqRouters := [575] };
      (s.unit 15).reqRouters.contains 575 = true ∧ (s.unit 15).drainedRouters.contains 575 = false ∧ s.unitQuiet 15 575 = true) ∧
    (opened.unit 15).state = .running ∧
    (let s := (opened.setUnit 15 fun x => { x with state := .drained, cmd := some (0, 0, 9) });
      let s := { s with intake.table := [entry false false .other] };
      (s.unit 15).state = .drained ∧ (s.unit 15).cmd = some (0, 0, 9) ∧ s.intake.busy = none ∧
        s.entry 0 0 9 = some (entry false false .other)) ∧
    ((opened.setUnit 16 fun x => { x with state := .drained }).unit 16).cmd = none ∧
    admits cardGrtFence (cmd [15, 0, 0xE8, 3]) opened = true ∧
    (let s := (opened.setUnit 15 fun x => { x with state := .fenced }).setDie 23 fun d => { d with state := .fenced };
      admits cardGrtUnfence (cmd [0, 15, 0, 0, 0, 0, 0, 0]) s = true) ∧
    admits cardGrtUnfence (cmd [1, 0, 35, 15, 0, 0, 0, 0])
      { opened with grout.dead := [epKey { x := 35, y := 15, ep := 0 }] } = true ∧
    admits cardGrtSlotSet (cmd [0, 254, 1, 0, 4, 0, 0, 35, 15, 0, 0, 0, 1, 0, 0, 0]) opened = true ∧
    (let f := flowParam (cmd [0, 254, 1, 0, 4, 0, 0, 35, 15, 0, 0, 0, 1, 0, 0, 0]);
      admits cardGrtSlotSet (cmd [1, 254, 1, 0, 0, 0, 0, 0, 0, 0, 0, 0, 0, 0, 0, 0]) { opened with grout.flows := [f] } = true) ∧
    admits cardGrtProbeSet (cmd ([0, 0, 0x3F, 2, 1, 31, 3, 3, 0, 0, 0, 0, 1] ++ List.replicate 51 0)) opened = true ∧
    admits cardGrtProbeSet (cmd (1 :: List.replicate 47 0 ++ [0, 0x10, 0, 0, 0, 0, 0, 0, 0, 0x10, 0, 0, 0, 0, 0, 0])) opened = true ∧
    admits cardGrtProbeSet (cmd ([2, 0, 0x3F, 2] ++ List.replicate 60 0)) opened = true ∧
    (∀ k, k < 3 → admits cardGrtStatus (cmd [k, 0, 0, 0, 0, 0, 0, 0]) opened = true) := by
  decide +kernel

theorem witness_GroutTraffic_up :
    opened.up = true ∧ ({ opened with power.phase := .dormant } : State).up = false ∧ dramUp.up = true ∧ (imaged 0 8 8 []).up = true ∧
    (let s := opened.setDie 0 fun d => { d with held := true };
      s.decode 0x200000000000 = .inr { ep := portEp 0, target := none } ∧ s.portHeld 0 = true) := by
  decide +kernel

/-- The fabric port 0 has sixteen requests waiting. -/
def fullPort : State := (imaged 0 8 8 []).setPort 0 fun x => { x with tq := List.replicate 16 req0 }

theorem fullPort_clock (t : State) (ht : t.cfg = (imaged 0 8 8 []).cfg) : t.portClkSel 0 = 0 := by
  show t.courseField 0 8 8 273 0 6 = 0
  have h : t.courseField 0 8 8 273 0 6 = (imaged 0 8 8 []).courseField 0 8 8 273 0 6 := by
    simp only [State.courseField, State.cfgBit, ht]
  rw [h, field (v := 0) (by decide +kernel)]

theorem witness_GroutTraffic_full :
    16 ≤ (fullPort.port 0).tq.length ∧ fullPort.portRuns 0 = true ∧
    (let s : State := { fullPort with fab.clkLive := 0 };
      16 ≤ (s.port 0).tq.length ∧ s.portHeld 0 = false ∧ s.portRuns 0 = false) ∧
    fullPort.portHeld 0 = false ∧ fullPort.decode 0x200000000000 = .inr { ep := portEp 0, target := none } := by
  refine ⟨by decide +kernel, ?_, ⟨by decide +kernel, by decide +kernel, ?_⟩, by decide +kernel, by decide +kernel⟩
  · unfold State.portRuns; rw [fullPort_clock fullPort rfl]; decide +kernel
  · unfold State.portRuns; rw [fullPort_clock { fullPort with fab.clkLive := 0 } rfl]; decide +kernel

/-- Window 0 goes to device 0 by group 31. -/
def windowed (en : Bool) (f : BondGroup → BondGroup) : State :=
  let s := inDomain f
  { s with bond.state := .frozen, bond.windows := [(0, { en, device := 0, base := 0 })], bond.routes := [(0, 32)] }

theorem witness_GroutTraffic_windows :
    (let r := { fromEngine with addr := 0x400000000000 };
      let s := windowed true id;
      let w := s.win (r.addr.toNat / 2 ^ 40 % 16);
      let s' : State := { s with sec.acl := [(15 * 256 + 7, some { rights := 0x81, masterLo := 0, masterHi := 0xFFFF, base := 0, limit := 0xFFFFFFFFFFFF })] };
      s.up = true ∧ s.endpointExists r.src = true ∧ s.injectFrozen r = false ∧ s.isDead r.src = false ∧ s.unitOut r.src = false ∧
        w.en = true ∧ w.device ≠ s.bond.device ∧ s.bond.members.getLsbD w.device.toNat = true ∧
        SMap.look 0 s.bond.routes w.device.toNat - 1 = 31 ∧ (s.grp 31).state = .up ∧ (s.grp 31).holding = false ∧
        (s.grp 31).bufferFull = false ∧ (s.grp 31).txq = [] ∧ s.bond.state ≠ .running ∧
        (s.grp 31).tunnels.length + (s.grp 31).forwards.length < 64 ∧
        s.decode r.addr.toNat = .inr { ep := bondEp 31 r.addr.toNat, target := some 15 } ∧
        s.routeBlocked r.src (bondEp 31 r.addr.toNat) = false ∧ s.unitOut (bondEp 31 r.addr.toNat) = false ∧
        s.isDead (bondEp 31 r.addr.toNat) = false ∧
        ∃ x ∈ s'.aclEntries 15, x.rights.getLsbD 7 = true ∧ x.masterLo.toNat ≤ (fillHeader r).master.toNat ∧
          (fillHeader r).master.toNat ≤ x.masterHi.toNat ∧ x.base.toNat ≤ r.addr.toNat ∧
          r.addr.toNat + r.len.toNat ≤ x.limit.toNat ∧ x.rights.getLsbD 0 = true) ∧
    ((windowed false id).win 0).en = false ∧
    (let s := windowed true fun x => { x with state := .down };
      (s.win 0).en = true ∧ (s.win 0).base.toNat < 2 ^ 48 ∧ (s.grp 31).state ≠ .up) := by
  decide +kernel

theorem witness_GroutTraffic_dead :
    opened.paused stewardEp = false ∧ laneDieOfEp stewardEp = none ∧ opened.isDead stewardEp = false ∧
    (let e : Endpoint := { x := 4, y := 0, ep := 2 };
      opened.endpointExists e = true ∧ opened.isDead e = false ∧ opened.paused e = false ∧ (laneDieOfEp e).isSome = true) := by
  decide +kernel

/-! ### Engine commands (11, 16) and DRAM (13) -/

/-- A mask of engine 191, and what follows it. -/
def onEngine191 (rest : List Nat) : Cmd := cmd (List.replicate 23 0 ++ [0x80] ++ rest)

theorem witness_EngineCommands :
    admits cardEngLoad (onEngine191 (List.replicate 24 0 ++ [0, 0, 2, 0, 0, 0, 0, 0, 0, 0, 0, 0, 0, 0, 0, 0])) opened = true ∧
    (∀ clear, clear < 2 → admits cardEngStart (onEngine191 [0xFF, 0xFF, 1, 0, 16, clear, 0, 0]) opened = true) ∧
    (fieldAt (onEngine191 []).params 0 24).testBit 191 = true ∧ (fieldAt (onEngine191 []).params 0 24).testBit 190 = false ∧
    (let s := opened.setEng 191 fun x => { x with state := .running };
      admits cardEngStop (onEngine191 [0, 0, 0, 0, 0, 0, 0, 0]) s = true ∧ (s.eng 191).state ≠ .stopped ∧
        (s.eng 191).state ≠ .wedged ∧ (s.eng 191).gload = none ∧ (s.eng 191).sb = [] ∧ s.power.mode ≠ .hold ∧
        s.intake.busy = none ∧ s.dbg.freeze = 0 ∧ s.dbg.lanesFrozen = false) ∧
    admits cardEngStatus (cmd [191, 1, 0, 0]) opened = true ∧ admits cardEngStatus (cmd [0, 192, 0, 0]) opened = true ∧
    (let s := opened.setEng 191 fun x => { x with state := .running };
      admits cardDbgEngControl (onEngine191 [0, 0, 0, 0, 0, 0, 0, 0]) s = true ∧ (s.eng 191).state ≠ .halted) ∧
    (let s := opened.setEng 191 fun x => { x with state := .halted };
      admits cardDbgEngControl (onEngine191 [0, 0, 0, 0, 0, 0, 0, 0]) s = true ∧
        admits cardDbgEngControl (onEngine191 [1, 1, 0xFF, 0xFF, 0, 0, 0, 0]) s = true ∧
        admits cardDbgEngControl (onEngine191 [2, 0, 0, 0, 0, 0, 0, 0]) s = true ∧ (s.eng 191).state = .halted) ∧
    admits cardDbgFreezeSet (cmd (0x7D :: List.replicate 27 0)) opened = true ∧
    (admits cardDbgFreezeSet (cmd (0x79 :: List.replicate 27 0)) opened = true ∧ (0x79 : Nat).testBit 2 = false) := by
  decide +kernel

/-- Channel 7 has DIMMs, in the given state. -/
def channel7 (state : ChanState) : State := { opened with part.dimms := [(7, { count := 2 })], dram.chans := [(7, { state })] }

/-- MEK_REGION_SET of region 7: action, key source, GiB 1, size one GiB, metadata from GiB 2 on. -/
def regionSet (action random : Nat) : Cmd :=
  cmd ([7, action, random, 0, 0, 0, 0, 0] ++ [0, 0, 0, 0x40, 0, 0, 0, 0] ++ [0, 0, 0, 0x40, 0, 0, 0, 0] ++ [0, 0, 0, 0x80, 0, 0, 0, 0])

theorem witness_DramTrainingAndRegions :
    (let s := channel7 .training;
      (s.chan 7).state = .training ∧ s.dram.trainCmd = none ∧ s.power.resetCause ≠ .wake ∧
        ∀ k, k < 8 → k ≠ 7 → (s.chan k).state ≠ .training) ∧
    (let s : State := { channel7 .training with dram.trainCmd := some ((0 : Fin 8), (0 : BitVec 16), (9 : BitVec 16), (1#8 <<< 7 : Byte), (4800 : Nat)), intake.table := [entry false false .other] };
      s.dram.trainCmd = some ((0 : Fin 8), (0 : BitVec 16), (9 : BitVec 16), (1#8 <<< 7 : Byte), (4800 : Nat)) ∧ s.entry 0 0 9 = some (entry false false .other)) ∧
    (let s : State := { dramUp with dram.regions := [(7, { state := .initialising, baseGiB := 1, sizeGiB := 1 })] };
      (s.region 7).state = .initialising ∧ (s.region 7).cmd = none) ∧
    (opened.region 7).state ≠ .initialising ∧
    (let s := channel7 .trained;
      admits cardDrcTrain (cmd [0x80, 0, 0xC0, 0x12]) s = true ∧ s.dram.queues = [] ∧
        ∃ n, n < 8 ∧ (0x80 : Nat).testBit n = true ∧ (s.dimmsOf n).count ≠ 0) ∧
    admits cardMekRegionSet (regionSet 0 1) dramUp = true ∧
    admits cardMekRegionSet (regionSet 0 0) { dramUp with sec.keys := [(23, List.replicate 96 1)] } = true ∧ dramUp.dram.queues = [] ∧
    admits cardMekRegionSet (regionSet 1 0) { dramUp with dram.regions := [(7, { state := .active, baseGiB := 1, sizeGiB := 1 })] } = true ∧
    admits cardDrcStatus (cmd []) opened = true ∧ admits cardMekStatus (cmd []) opened = true := by
  decide +kernel

/-! ### Security, access tables and the guest gate (14) -/

/-- Command key 0 of the tests. -/
def k0 : List Byte := List.replicate 32 0x42

/-- A command with a trailer under a key, its counter 7. -/
def sign (key : List Byte) (opcode : BitVec 16) (ps : List Nat) : Cmd :=
  let c : Cmd := { cmd ps with flags := 2, body := ps.map (BitVec.ofNat 8) ++ leBytes 8 7 }
  { c with body := c.body ++ (Crypto.cmac key ({ opcode, cmd := c } : Packet).macInput).take 8 }

theorem slice_tail (a b : List Byte) (h : b.length = 8) : slice (a ++ b) a.length 8 = b := by
  unfold slice
  simp [h]

/-- What a signed command carries before its tag. -/
theorem sign_head {ps : List Nat} (h : ps.length < 2 ^ 32) :
    (ps.map (BitVec.ofNat 8) ++ leBytes 8 7).length = (BitVec.ofNat 32 ps.length).toNat + 8 := by
  rw [List.length_append, List.length_map, BitVec.toNat_ofNat, Nat.mod_eq_of_lt h]; rfl

/-- The tag that a signed command carries. -/
theorem sign_mac {key : List Byte} {opcode : BitVec 16} {ps : List Nat} (h : ps.length < 2 ^ 32) :
    (sign key opcode ps).mac = (Crypto.cmac key ({ opcode, cmd := { cmd ps with
      flags := 2, body := ps.map (BitVec.ofNat 8) ++ leBytes 8 7 } } : Packet).macInput).take 8 := by
  show slice (ps.map (BitVec.ofNat 8) ++ leBytes 8 7 ++ _) ((BitVec.ofNat 32 ps.length).toNat + 8) 8 = _
  rw [← sign_head h]
  exact slice_tail _ _ (by simp [Crypto.cmac_length])

theorem quiet_ports {m : SMap Port} (h : (m.all fun e => e.2.requests.isEmpty) = true) (q : Nat) :
    (SMap.look {} m q).requests = [] := by
  induction m with
  | nil => rfl
  | cons e m ih =>
    obtain ⟨k, v⟩ := e
    simp only [List.all_cons, Bool.and_eq_true, List.isEmpty_iff] at h
    unfold SMap.look
    split
    · exact h.1
    · exact ih h.2

/-- No other packet requests and no sequence is locked. -/
def alone (p : Packet) (s : State) : Bool :=
  let u := takeRanks (submitted p (expireHeld s))
  (expireHeld s).submits p && (expireHeld s).reaches p && u.intake.lock.isNone && u.intake.ports.all fun e => e.2.requests.isEmpty

theorem admits_alone {p : Packet} {s : State} (hp : p.cmd.port ≠ 5 ∧ p.cmd.port ≠ 6) (h : alone p s = true) :
    (expireHeld s).admits p = true := by
  unfold alone at h
  simp only [Bool.and_eq_true, Option.isNone_iff_eq_none] at h
  obtain ⟨⟨⟨h1, h2⟩, h3⟩, h4⟩ := h
  unfold State.admits
  simp only [h1, h2, State.wins_alone hp h3 (quiet_ports h4), Bool.and_self]

/-- A signed command that passes the other checks is admitted. -/
theorem sign_admitted {card : Card} {ps : List Nat} {s : State}
    (hm : ({ opcode := card.opcode, cmd := sign k0 card.opcode ps } : Packet).macInput = ({ opcode := card.opcode, cmd := { cmd ps with
      flags := 2, body := ps.map (BitVec.ofNat 8) ++ leBytes 8 7 } } : Packet).macInput)
    (hl : ps.length < 2 ^ 32)
    (hk : (let c := sign k0 card.opcode ps
      let u := checked card c s
      c.trailer && u.trailerKey card c == k0 && card.cls != .maker && !c.lockEnd &&
        decide ((SMap.look 0 u.intake.counters c.keySlot).toNat < (BitVec.ofNat 64 c.counter).toNat)) = true)
    (hpre : alone { opcode := card.opcode, cmd := sign k0 card.opcode ps } s = true)
    (hperm : (let c := sign k0 card.opcode ps
      let u := checked card c s
      c.paramLength.toNat % 4 == 0 && decide (c.paramLength.toNat ≤ 65536) && card.lengthOk c && flagsOk c && portPermits card c.port u && modePermits card c u &&
      !((u.cport c.port.val).lockedOut && (card.critical || c.trailer))) = true)
    (hcheck : (let c := sign k0 card.opcode ps
      let t := (checked card c s).setCport c.port.val fun x => { x with failRun := 0 }
      let u : State := { t with intake := { t.intake with
        counters := SMap.put 0 t.intake.counters c.keySlot (BitVec.ofNat 64 c.counter) } }
      let auth : Auth := some (BitVec.ofNat 64 c.counter, k0)
      (commonState card c auth u).isNone && (card.param c u).isNone && !lacksLog card c auth u) = true) :
    admits card (sign k0 card.opcode ps) s = true := by
  simp only [Bool.and_eq_true, decide_eq_true_eq, beq_iff_eq, bne_iff_ne, Bool.not_eq_true'] at hk
  obtain ⟨⟨⟨⟨ht, hk⟩, hc⟩, he⟩, hn⟩ := hk
  obtain ⟨u, hu, hv⟩ := checkTrailer_signed (p := { opcode := card.opcode, cmd := sign k0 card.opcode ps }) ht hk (by decide)
    (by rw [hm]; exact (sign_mac hl).symm) hc hn
  have hs : (sign k0 card.opcode ps).body.length = (sign k0 card.opcode ps).paramLength.toNat +
      (if (sign k0 card.opcode ps).trailer then 16 else 0) := by
    rw [ht]
    show (ps.map (BitVec.ofNat 8) ++ leBytes 8 7 ++ _).length = (BitVec.ofNat 32 ps.length).toNat + 16
    rw [List.length_append, sign_head hl]; simp [Crypto.cmac_length]
  unfold admits
  rw [admit_of_checks (admits_alone ⟨show (0 : Fin 8) ≠ 5 by decide, show (0 : Fin 8) ≠ 6 by decide⟩ hpre) (by unfold sizeOk; simp only [hs, beq_self_eq_true, Bool.and_true]; exact hperm) hu he (by subst hv; exact hcheck)]
  rfl

/-- Open, with command key 0 and the given other keys. -/
def keysIn (rest : SMap (List Byte)) : State := { keyed with sec.keys := (0, k0) :: rest }

theorem witness_SecurityCommands_mode :
    admits cardSecModeSet (sign k0 0x0402 [2, 0, 0, 0]) (keysIn [(8, k0)]) = true :=
  sign_admitted (card := cardSecModeSet) (by decide +kernel) (by decide) (by decide +kernel) (by decide +kernel) (by decide +kernel)
    (by decide +kernel)

theorem witness_SecurityCommands_erase_last : admits cardSecKeyErase (sign k0 0x0401 [0, 0, 0, 0]) (keysIn []) = true :=
  sign_admitted (card := cardSecKeyErase) (by decide +kernel) (by decide) (by decide +kernel) (by decide +kernel) (by decide +kernel)
    (by decide +kernel)

theorem witness_SecurityCommands_erase : admits cardSecKeyErase (sign k0 0x0401 [3, 7, 0, 0]) (keysIn [(23, k0 ++ k0 ++ k0)]) = true :=
  sign_admitted (card := cardSecKeyErase) (by decide +kernel) (by decide) (by decide +kernel) (by decide +kernel) (by decide +kernel)
    (by decide +kernel)

/-- Key slot 3, wrapped. -/
def wrappedKey : List Nat := [1, 3, 40, 0] ++ List.replicate 40 5

theorem witness_SecurityCommands_wrapped : admits cardSecKeyProvision (sign k0 0x0400 wrappedKey) (keysIn []) = true :=
  sign_admitted (card := cardSecKeyProvision) (by decide +kernel) (by decide) (by decide +kernel) (by decide +kernel)
    (by decide +kernel) (by decide +kernel)

theorem witness_SecurityCommands_policy :
    admits cardSecPolicySet (sign k0 0x0405 [0x1B, 0, 0, 0]) { keysIn [] with sec.stored := .sealed } = true :=
  sign_admitted (card := cardSecPolicySet) (by decide +kernel) (by decide) (by decide +kernel) (by decide +kernel)
    (by decide +kernel) (by decide +kernel)

theorem witness_SecurityCommands_unlock :
    admits cardSecDebugUnlock (sign k0 0x0403 (List.replicate 36 0)) (keysIn [(8, k0)]) = true :=
  sign_admitted (card := cardSecDebugUnlock) (by decide +kernel) (by decide) (by decide +kernel) (by decide +kernel)
    (by decide +kernel) (by decide +kernel)

/-- A session of port 0 that its commands opened. -/
def session0 (isImplicit : Bool) : Session := { isImplicit, port := 0, source := 0, keyId := 0, captureKey := none }

theorem witness_SecurityCommands :
    admits cardSecKeyProvision (cmd ([0, 0, 32, 0] ++ List.replicate 32 0x42)) opened = true ∧ opened.sec.stored = .blank ∧
    (admits cardSecKeyErase (cmd [0, 3, 0, 0]) opened = true ∧ opened.key 3 = []) ∧
    ((keysIn []).key 0 ≠ [] ∧ ∀ k, k < 4 → k ≠ 0 → (keysIn []).key k = []) ∧ (keysIn [(23, k0)]).key 23 ≠ [] ∧
    (keysIn []).sec.session = none ∧
    admits cardSecPolicySet (cmd [0x1F, 0, 0, 0]) opened = true ∧
    (∀ action, action < 2 → admits cardSecDebugUnlock (cmd (action :: List.replicate 35 0)) opened = true) ∧ opened.key 8 = [] ∧
    admits cardSecDebugLock (cmd []) { opened with sec.session := some (session0 false) } = true ∧
    (session0 true).isImplicit = true ∧ admits cardSecStatus (cmd []) opened = true := by
  decide +kernel

/-- A part with a guest, its role set. -/
def guest : State :=
  State.setDie { opened with
    part.guestVariant := true, dev.role := true, gst.tableOpen := false
    gst.table := [(63, some { masterLo := 0, masterHi := 0, rights := 0x83, base := 0, limit := 0xFFF })] } 25
    fun _ => { state := .running }

def guestReq : GReq := { req0 with src := { x := 0, y := 7, ep := 3 } }

theorem witness_AccessTablesAndGuest :
    admits cardAclWrite (cmd ([35, 0, 0xFF, 0, 1, 0, 0, 0] ++ [0, 0, 0xFF, 0xFF, 0x87, 0, 0, 0] ++ List.replicate 8 0 ++
      [0xFF, 0xFF, 0, 0, 0, 0, 0, 0])) opened = true ∧
    admits cardAclRead (cmd [8, 0, 0xC0, 0, 64, 0, 0, 0]) opened = true ∧
    admits cardAclInvalidate (cmd [0xFF, 0xFF, 0, 0]) opened = true ∧ admits cardAclInvalidate (cmd [35, 0, 0, 0]) opened = true ∧
    opened.guestOn = false ∧ guest.guestOn = true ∧ guest.gst.isolated = false ∧ guest.gst.withheld = [] ∧
    ({ guest with gst.isolated := true } : State).gst.isolated = true ∧
    ((guest.gstEntry 63).rights.getLsbD 7 = true ∧ (guest.gstEntry 63).rights.getLsbD 0 = true ∧
      (guest.gstEntry 63).base.toNat ≤ (0xFFC : Addr).toNat ∧ (0xFFC : Addr).toNat + (3 : BitVec 8).toNat ≤ (guest.gstEntry 63).limit.toNat) ∧
    guest.sec.policy.getLsbD 4 = false ∧
    (¬ ∃ i, i < 64 ∧ (guest.gstEntry i).rights.getLsbD 7 = true ∧ (guest.gstEntry i).rights.getLsbD 0 = true ∧
      (guest.gstEntry i).base.toNat ≤ (0x1000 : Addr).toNat ∧
      (0x1000 : Addr).toNat + (3 : BitVec 8).toNat ≤ (guest.gstEntry i).limit.toNat) ∧
    guest.gst.rate = 0 ∧
    (let s : State := { guest with gst.rate := 1, gst.burst := 1, gst.tokens := 4 };
      let bucket := min (s.gst.burst.toNat * 1024) (s.gst.tokens + s.gst.rate.toNat * (s.time - s.gst.refillAt));
      s.gst.rate ≠ 0 ∧ guestReq.len.toNat + 1 ≤ bucket ∧ s.gst.burst ≠ 0) ∧
    (let s : State := { guest with gst.rate := 1, gst.burst := 1, gst.tokens := 3, gst.refillAt := guest.time };
      let bucket := min (s.gst.burst.toNat * 1024) (s.gst.tokens + s.gst.rate.toNat * (s.time - s.gst.refillAt));
      s.gst.rate ≠ 0 ∧ bucket < guestReq.len.toNat + 1 ∧
        ({ s with gst.withheld := [(guestReq, 0)] } : State).gst.withheld = [(guestReq, 0)]) ∧
    admits cardGstFirewallSet (cmd ([0, 63, 0, 0] ++ [0, 0, 0, 0, 0x83, 0, 0, 0] ++ List.replicate 8 0 ++
      [0xFF, 0x0F, 0, 0, 0, 0, 0, 0])) guest = true ∧
    admits cardGstFirewallSet (cmd ([1, 0, 0, 0, 0xFF, 0x1F, 1, 0] ++ List.replicate 20 0)) guest = true ∧
    admits cardGstIsolate (cmd [0, 0, 0, 0]) guest = true := by
  decide +kernel

/-! ### The debug port (16) -/

/-- The debug protocol's instruction register holds a code. -/
def selected (code : Byte) : State := { opened with dbg.instr := code }

def twoWire : State := { opened with dbg.twoWire := true }

theorem witness_DebugPort :
    (opened.dbgPowered = true ∧ opened.dbg.twoWire = false ∧ opened.evr.returnState = false ∧ twoWire.dbgPowered = true ∧
      twoWire.dbg.twoWire = true) ∧
    ({ opened with power.phase := .off } : State).dbgPowered = false ∧
    (opened.mayAccess 2 = true ∧ ({ opened with sec.stored := .sealed } : State).mayAccess 2 = false) ∧
    (opened.secAxis ≠ .quarantine ∧ opened.cfg.loaded = 0 ∧ (opened.sec.session.map fun n => decide (n.port = 2 ∧ n.source = 0)) ≠ some false) ∧
    (let s : State := { opened with sec.stored := .sealed };
      (s.secAxis = .sealed ∧ (s.sec.session.map fun n => decide (n.port = 2 ∧ n.source = 0)) = none)) ∧
    ({ keyed with sec.latch := true } : State).secAxis = .quarantine ∧
    (let s : State := { opened with cfg.loaded := 1 };
      s.power.mode ≠ .hold ∧ s.cfg.loaded ≠ 0) ∧
    ({ opened with evr.returnState := true } : State).evr.returnState = true ∧
    ((selected 0x10).dbg.instr = 0x10 ∧ opened.dbg.instr ≠ 0x10) ∧
    (let s := selected 0x11;
      s.dbg.instr = 0x11 ∧ s.dbg.twoWire = false ∧ (2 ^ 32 : BitVec 33).getLsbD 32 = true ∧ (5 : BitVec 33).getLsbD 32 = false ∧
        ((s.cport 2).partialBytes ++ leBytes 4 5).length < 16 ∧ (s.space 2 0).current = none) ∧
    (let s := (selected 0x11).setCport 2 fun x => { x with partialBytes := List.replicate 12 0 };
      let bytes := (s.cport 2).partialBytes ++ leBytes 4 0;
      16 ≤ bytes.length ∧ packetSize bytes ≤ bytes.length ∧ s.intake.opened = true ∧ (s.space 2 0).reqBusy = false ∧
        (s.space 2 0).retryUntil ≤ s.time) ∧
    (let s := (selected 0x11).setSpace 2 0 fun sp => { sp with current := some reply };
      (s.space 2 0).current = some reply ∧ s.dbg.shifted + 4 < reply.bytes.length ∧ (s.space 2 0).waiting = [] ∧
        reply.bytes.length ≤ ({ s with dbg.shifted := 12 } : State).dbg.shifted + 4) ∧
    (let s := selected 0x12;
      s.dbg.instr = 0x12 ∧ s.up = true ∧ s.dbg.accBusy = false ∧ s.mayAccess 2 = true ∧
        ({ s with dbg.accBusy := true } : State).dbg.accBusy = true ∧
        (BitVec.ofNat 96 (2 ^ 95)).extractLsb' 94 2 = (2 : BitVec 2) ∧ (BitVec.ofNat 96 (2 ^ 94)).extractLsb' 94 2 = (1 : BitVec 2) ∧
        (0 : BitVec 96).extractLsb' 94 2 = (0 : BitVec 2)) := by
  decide +kernel

/-- Write commands of the two-wire protocol: index, and the parity that makes the byte even. -/
theorem witness_DebugPort_frames :
    (∀ e ∈ ([(0xA5, 2), (0xA9, 4)] : List (Byte × Nat)),
      popCount e.1.toNat 8 % 2 = 0 ∧ e.1.getLsbD 5 = true ∧ e.1.toNat / 2 % 16 = e.2 ∧ e.1.toNat / 64 = 2) ∧
    (∀ e ∈ ([(0x81, 0), (0x84, 2), (0x88, 4), (0x8D, 6), (0x8B, 5), (0x9F, 15)] : List (Byte × Nat)),
      popCount e.1.toNat 8 % 2 = 0 ∧ e.1.getLsbD 5 = false ∧ e.1.toNat / 2 % 16 = e.2 ∧ e.1.toNat / 64 = 2) ∧
    popCount (0x80 : Byte).toNat 8 % 2 ≠ 0 ∧ (0x80 : Byte).toNat / 64 = 2 ∧ (0xC0 : Byte).toNat / 64 ≠ 2 := by
  decide +kernel

/-! ### The event recorder and the return of a part (17) -/

def rec_ : Rec := { code := 0x9006, slots := [1, 2, 3], time := 0 }

/-- A record waits; the newest page is used as said. -/
def recording (used : Nat) : State :=
  { opened with evr.pending := [rec_], evr.pages := SMap.upd {} opened.evr.pages opened.evr.newest fun p => { p with used } }

theorem witness_EventRecorder :
    opened.evr.pending = [] ∧ opened.evr.readonly = false ∧ opened.evr.clearing = none ∧
    ((recording 4056).evr.pending = [rec_] ∧ ((recording 4056).evr.page (recording 4056).evr.newest).used + rec_.size ≤ 4096 ∧
      4096 < ((recording 4057).evr.page (recording 4057).evr.newest).used + rec_.size) ∧
    (∃ old ring, (recording 4057).evr.ring = old :: ring ∧ ((recording 4057).evr.page old).worn = false) ∧
    opened.evr.exchange? = none ∧
    (let s : State := { opened with evr.buckets := [(0x9006, { suppressed := 3, firstAt := 1, lastAt := 2 })] };
      (SMap.look {} s.evr.buckets 0x9006).suppressed ≠ 0 ∧ (SMap.look {} opened.evr.buckets 0x9006).suppressed = 0) ∧
    (({ opened with evr.lostRun := 2 } : State).evr.lostRun ≠ 0 ∧ ({ opened with evr.lostRun := 2 } : State).evr.pendingBytes + 24 ≤ 16384) ∧
    admits cardEvrRead (cmd ([0, 0, 0, 0, 16, 0, 0, 0] ++ List.replicate 8 0)) opened = true ∧
    admits cardEvrHead (cmd []) opened = true ∧ admits cardEvrClear (cmd []) opened = true ∧
    admits cardEvrRateSet (cmd [6, 0xA0, 0, 1]) opened = true ∧ admits cardEvrRateSet (cmd [0xFF, 0xFF, 0, 1]) opened = true ∧
    (cmd []).trailer = false := by
  refine ⟨by decide +kernel, by decide +kernel, by decide +kernel, by decide +kernel, ⟨_, _, rfl, by decide +kernel⟩, by decide +kernel⟩

/-- A page of the ring has 1,000 more erases than a spare, after 4,096 erases. -/
theorem witness_EventRecorder_exchange :
    let s : State := { opened with
      evr.eraseCount := 4096
      evr.pages := SMap.upd {} opened.evr.pages (opened.evr.ring.headD 0) fun p => { p with erases := p.erases + 2000 } }
    ∃ w p, s.evr.exchange? = some (w, p) ∧ (s.evr.page p).worn = false ∧ w ≠ p := by
  exact ⟨1, 240, by decide +kernel, by decide +kernel, by decide +kernel⟩

theorem witness_EventRecorder_return :
    admits cardReturnPrepare (cmd ((leBytes 4 opened.part.uid.toNat).map BitVec.toNat ++ [1, 0, 0, 0])) opened = true := by
  decide +kernel

/-- RETURN_UNLOCK in the return state under the maker's key. -/
def unlocking : Cmd := sign ((List.range 32).map Config.makerKey) 0x0C01 []

theorem witness_EventRecorder_unlock :
    ∃ auth u, admission cardReturnUnlock unlocking { opened with evr.returnState := true } = some (auth, u) := by
  have hm : ({ opcode := 0x0C01, cmd := unlocking } : Packet).macInput = ({ opcode := 0x0C01, cmd := { cmd [] with
      flags := 2, body := [].map (BitVec.ofNat 8) ++ leBytes 8 7 } } : Packet).macInput := by decide +kernel
  have hs : unlocking.body.length = unlocking.paramLength.toNat + 16 := by
    show (([] : List Nat).map (BitVec.ofNat 8) ++ leBytes 8 7 ++ _).length = (BitVec.ofNat 32 ([] : List Nat).length).toNat + 16
    rw [List.length_append, sign_head (by decide)]; simp [Crypto.cmac_length]
  have ht : unlocking.trailer = true := by decide +kernel
  have hk : (State.trailerKey (checked cardReturnUnlock unlocking { opened with evr.returnState := true }) cardReturnUnlock unlocking) =
    (List.range 32).map Config.makerKey := rfl
  have he : ((List.range 32).map Config.makerKey).isEmpty = false := rfl
  refine ⟨none, _, admit_of_checks (admits_alone ⟨show (0 : Fin 8) ≠ 5 by decide, show (0 : Fin 8) ≠ 6 by decide⟩ (by decide +kernel)) ?_ (checkTrailer_maker ht hk he ?_ rfl) (by decide +kernel) (by decide +kernel)⟩
  · unfold sizeOk
    rw [hs, ht]
    simp only [if_true, beq_self_eq_true, Bool.and_true]
    decide +kernel
  · rw [show unlocking.mac = _ from sign_mac (by decide)]
    show (Crypto.cmac _ (Packet.macInput { opcode := 0x0C01, cmd := unlocking })).take 8 = _
    rw [hm]

end Sys2Proof.Tests
end

/-! ## Proofs: the command intake (02) -/

namespace Sys2Proof.Machine
open Sys2Proof

/-! ### A command that passes every check executes (02 T2.7) -/

/-- A packet that its port takes and the arbiter grants is processed on the state that the checks see. -/
theorem spatu_of_admits {card : Card} {c : Cmd} {s : State}
    (h : (expireHeld s).admits { opcode := card.opcode, cmd := c } = true) :
    spatu card c s = process (some card) { opcode := card.opcode, cmd := c } (checked card c s) := by
  simp only [State.admits, Bool.and_eq_true] at h
  obtain ⟨⟨hsubmits, hreaches⟩, hwins⟩ := h
  simp only [spatu, checked, hsubmits, hreaches, hwins, Bool.not_true, Bool.false_eq_true, if_false, if_true]

/-- Execution runs the card on the state it begins on. -/
theorem execute_eq_run (card : Card) (c : Cmd) (auth : Auth) (s : State) :
    execute card c auth s = card.run c auth (begun card c auth s) := rfl

/-- What a packet has passed where it is admitted, step by step: the counterpart of `admit_of_checks`. The state it executes
on is the one its trailer leaves, an ended locked sequence released. -/
theorem checks_of_admission {card : Card} {c : Cmd} {s u : State} {auth : Auth} (h : admission card c s = some (auth, u)) :
    (expireHeld s).admits { opcode := card.opcode, cmd := c } = true ∧
    (sizeOk card c && flagsOk c && portPermits card c.port (checked card c s) && modePermits card c (checked card c s) &&
      !(((checked card c s).cport c.port.val).lockedOut && (card.critical || c.trailer))) = true ∧
    ∃ t, checkTrailer card { opcode := card.opcode, cmd := c } (checked card c s) = (.inr auth, t) ∧
      u = (if c.lockEnd && t.ownsLock c then { t with intake.lock := none } else t) ∧
      commonState card c auth t = none ∧ card.param c u = none ∧ lacksLog card c auth u = false := by
  unfold admission at h
  dsimp only at h
  split at h
  case isFalse => cases h
  case isTrue hadmits =>
    split at h
    case isFalse => cases h
    case isTrue hpermits =>
      split at h
      case h_1 => cases h
      case h_2 auth' t htrailer =>
        obtain ⟨hrest, hsome⟩ := Option.ite_none_right_eq_some.1 h
        cases hsome
        obtain ⟨hchecks, hlog⟩ := Bool.and_eq_true_iff.1 hrest
        obtain ⟨hcommon, hparam⟩ := Bool.and_eq_true_iff.1 hchecks
        exact ⟨hadmits, hpermits, t, htrailer, rfl, Option.isNone_iff_eq_none.1 hcommon, Option.isNone_iff_eq_none.1 hparam,
          Bool.eq_false_of_not_eq_true' hlog⟩

/-- A packet that passes steps 2 to 4 goes on to its trailer. -/
theorem process_of_permits {card : Card} {p : Packet} {s : State}
    (h : (sizeOk card p.cmd && flagsOk p.cmd && portPermits card p.cmd.port s && modePermits card p.cmd s &&
      !((s.cport p.cmd.port.val).lockedOut && (card.critical || p.cmd.trailer))) = true) {auth : Auth} {t : State}
    (ht : checkTrailer card p s = (.inr auth, t)) : process (some card) p s = checkAndRun card p auth t := by
  simp only [Bool.and_eq_true] at h
  obtain ⟨⟨⟨⟨hsize, hflags⟩, hport⟩, hmode⟩, hlockout⟩ := h
  rw [Bool.not_eq_true'] at hlockout
  simp only [process, hsize, hflags, hport, hmode, hlockout, ht, Bool.not_true, Bool.and_self, Bool.false_eq_true, if_false]

/-- A packet that passes steps 7 and 8 executes, and its answer is given. -/
theorem checkAndRun_of_checks {card : Card} {p : Packet} {auth : Auth} {t u : State}
    (hu : u = if p.cmd.lockEnd && t.ownsLock p.cmd then { t with intake.lock := none } else t)
    (hcommon : commonState card p.cmd auth t = none) (hparam : card.param p.cmd u = none)
    (hlog : lacksLog card p.cmd auth u = false) :
    checkAndRun card p auth t = giveAnswer p auth (execute card p.cmd auth u).1 (execute card p.cmd auth u).2 := by
  subst hu
  simp only [checkAndRun, hcommon, hparam, hlog, Bool.false_eq_true, if_false]

/-- An admitted command runs its card on the state it begins on, and the card's answer is given. -/
theorem spatu_of_admission {card : Card} {c : Cmd} {s u : State} {auth : Auth} (h : admission card c s = some (auth, u)) :
    spatu card c s = giveAnswer { opcode := card.opcode, cmd := c } auth (card.run c auth (begun card c auth u)).1
      (card.run c auth (begun card c auth u)).2 := by
  obtain ⟨hadmits, hpermits, t, htrailer, hu, hcommon, hparam, hlog⟩ := checks_of_admission h
  let p : Packet := { opcode := card.opcode, cmd := c }
  calc spatu card c s
      = process (some card) p (checked card c s) := spatu_of_admits hadmits
    _ = checkAndRun card p auth t := process_of_permits (p := p) hpermits htrailer
    _ = giveAnswer p auth (execute card c auth u).1 (execute card c auth u).2 :=
        checkAndRun_of_checks (p := p) hu hcommon hparam hlog

/-- A row whose card gives an answer and a next state as `P` says, from every state it may begin on, completes so. -/
theorem completes_of_run {i : Instr} {card : Card} {c : Cmd} {s : State} {P : State → Answer → State → Prop}
    (hexec : exec i s = .next (spatu card c s))
    (hrun : ∀ auth u, P (begun card c auth u) (card.run c auth (begun card c auth u)).1
      (card.run c auth (begun card c auth u)).2) : Completes i card c s P := by
  intro auth u h
  refine ⟨_, _, ?_, hrun auth u⟩
  rw [hexec, spatu_of_admission h]

/-- A row whose card answers OK with data and hands its state back reads. -/
theorem reads_of_run {i : Instr} {card : Card} {c : Cmd} {s : State} {data : State → List Byte}
    (hexec : exec i s = .next (spatu card c s)) (hrun : ∀ auth u, card.run c auth u = answerOk (data u) u) :
    Reads i card c s data :=
  completes_of_run hexec fun auth u => by rw [hrun]; exact ⟨rfl, rfl⟩

/-- CMD_COUNTER_READ runs its card. -/
theorem exec_cmdCounterRead (c : Cmd) (s : State) : exec (.cmdCounterRead c) s = .next (spatu cardCmdCounterRead c s) := rfl

/-- Settles O59: the card of CMD_COUNTER_READ answers the counters and hands back the state it began on. -/
theorem counterRead : Obligations.CounterRead := by
  unfold Obligations.CounterRead
  intro c s
  exact reads_of_run (exec_cmdCounterRead c s) fun _ _ => rfl

/-! ### Header bytes 10 to 15 (02 R45) -/

/-- A field that ends within the first `n` bytes depends on those alone. -/
theorem fieldAt_eq_of_take_eq {n off len : Nat} {bs cs : List Byte} (hn : off + len ≤ n) (h : bs.take n = cs.take n) :
    fieldAt bs off len = fieldAt cs off len := by
  have hfield : ∀ l : List Byte, (l.drop off).take len = ((l.take n).drop off).take len := fun l => by
    rw [List.drop_take, List.take_take, Nat.min_eq_left (by omega)]
  simp only [fieldAt, slice, hfield bs, hfield cs, h]

/-- The packet that a port takes does not depend on header bytes 10 to 15. -/
theorem parsePacket_eq_of_agree {port : Fin 8} {source : BitVec 16} {bs cs : List Byte} (hhead : bs.take 10 = cs.take 10)
    (hbody : bs.drop 16 = cs.drop 16) : parsePacket port source bs = parsePacket port source cs := by
  have hfield : ∀ off len, off + len ≤ 10 → fieldAt bs off len = fieldAt cs off len :=
    fun _ _ hn => fieldAt_eq_of_take_eq hn hhead
  simp only [parsePacket, hfield 0 2 (by decide), hfield 2 2 (by decide), hfield 4 4 (by decide), hfield 8 2 (by decide), hbody]

/-- On a port that takes whole packets, what the bytes do depends on their number and on the packet they spell. -/
theorem arrive_whole {port : Fin 8} (hport : 5 ≤ port.val) (source : BitVec 16) (bs : List Byte) (s : State) :
    arrive port source bs s = if s.sourceExists port source then submitBytes port source bs s else s := by
  have h0 : port ≠ 0 := fun h => by simp [h] at hport
  have h1 : port ≠ 1 := fun h => by simp [h] at hport
  have hserial : serialPort port.val = false := by simp [serialPort]; omega
  unfold arrive
  simp only [h0, h1, hserial, if_false, Bool.false_eq_true]
  by_cases hexists : s.sourceExists port source = true <;> simp [hexists]

/-- Bytes that spell the same packet are submitted alike. -/
theorem submitBytes_eq_of_agree {port : Fin 8} {source : BitVec 16} {bs cs : List Byte} (s : State)
    (hlen : bs.length = cs.length) (hparse : parsePacket port source bs = parsePacket port source cs) :
    submitBytes port source bs s = submitBytes port source cs s := by
  simp only [submitBytes, hlen, hparse]

/-! ### What leaves the ports as they were -/

@[simp] theorem State.setSpace_ports (s : State) (port : Fin 8) (source : BitVec 16) (f : ReplySpace → ReplySpace) :
    (s.setSpace port source f).intake.ports = s.intake.ports := rfl

@[simp] theorem sendFrame_intake (g : Nat) (kind : BitVec 8) (beat : W32) (payload : List Byte) (op : Option DomOp)
    (s : State) : (sendFrame g kind beat payload op s).intake = s.intake := rfl

theorem pumpGo_intake (n g : Nat) (s : State) : (pumpGo n g s).intake = s.intake := by
  induction n generalizing s with
  | zero => rfl
  | succ n ih =>
    unfold pumpGo
    dsimp only
    split
    · rfl
    · split
      · rfl
      · rw [ih, sendFrame_intake]; rfl

@[simp] theorem sendTxnFrame_intake (g : Nat) (kind : BitVec 8) (payload : List Byte) (s : State) :
    (sendTxnFrame g kind payload s).intake = s.intake := pumpGo_intake _ g _

@[simp] theorem mailboxWrite_intake (e : Nat) (r : Reply) (s : State) : (mailboxWrite e r s).intake = s.intake := rfl

@[simp] theorem signalMsi_ports (port : Fin 8) (s : State) : (signalMsi port s).intake.ports = s.intake.ports := by
  unfold signalMsi; split <;> rfl

@[simp] theorem postReply_ports (port : Fin 8) (source : BitVec 16) (r : Reply) (s : State) :
    (postReply port source r s).intake.ports = s.intake.ports := by
  unfold postReply; dsimp only; split <;> simp

@[simp] theorem bondReply_ports (device : Nat) (r : Reply) (s : State) :
    (bondReply device r s).intake.ports = s.intake.ports := by
  unfold bondReply
  dsimp only
  rw [apply_ite State.intake, sendTxnFrame_intake, ite_self, State.setSpace_ports]

/-- A reply that reaches its port, on whichever port, leaves what the ports ask for alone. -/
@[simp] theorem deliver_ports (port : Fin 8) (source : BitVec 16) (r : Reply) (s : State) :
    (deliver port source r s).intake.ports = s.intake.ports := by
  unfold deliver
  split
  case isTrue => exact bondReply_ports _ r s
  case isFalse =>
    dsimp only
    split
    case isTrue => rw [State.setSpace_ports]; split <;> rfl
    case isFalse => split <;> simp

@[simp] theorem replyBackoff_ports (p : Packet) (retry : Nat) (s : State) :
    (replyBackoff p retry s).intake.ports = s.intake.ports := by
  unfold replyBackoff; rw [deliver_ports, State.setSpace_ports]

@[simp] theorem takeReply_ports (port : Fin 8) (source : BitVec 16) (s : State) :
    (takeReply port source s).intake.ports = s.intake.ports := by
  unfold takeReply
  split
  · rfl
  · split
    · rfl
    · dsimp only; split <;> simp

@[simp] theorem spiTurn_ports (port : Fin 8) (s : State) : (spiTurn port s).intake.ports = s.intake.ports := by
  unfold spiTurn; split <;> simp

@[simp] theorem writeMbReq_ports (ctl : Fin 2) (bytes : List Byte) (s : State) :
    (writeMbReq ctl bytes s).intake.ports = s.intake.ports := by
  unfold writeMbReq; split <;> rfl

/-! ### Who asks for the intake after bytes arrive (02 R45) -/

/-- From `s` to `t` no packet comes to ask for the intake but under this port and source. -/
def AsksOnlyAs (port : Fin 8) (source : BitVec 16) (s t : State) : Prop :=
  ∀ k q, q ∈ (t.cport k).requests →
    q ∈ (s.cport k).requests ∨ (k = port.val ∧ q.cmd.port = port ∧ q.cmd.source = source)

section
variable {port : Fin 8} {source : BitVec 16} {s t u : State}

theorem AsksOnlyAs.refl (s : State) : AsksOnlyAs port source s s := fun _ _ => .inl

theorem AsksOnlyAs.trans (hst : AsksOnlyAs port source s t) (htu : AsksOnlyAs port source t u) :
    AsksOnlyAs port source s u :=
  fun k q hq => (htu k q hq).elim (hst k q) .inr

theorem asksOnlyAs_of_ports_eq (h : t.intake.ports = s.intake.ports) : AsksOnlyAs port source s t := by
  intro k q hq
  unfold State.cport at hq
  rw [h] at hq
  exact .inl hq

/-- A step that leaves the ports as they were may come first. -/
theorem AsksOnlyAs.after (htu : AsksOnlyAs port source t u) (hst : t.intake.ports = s.intake.ports) :
    AsksOnlyAs port source s u :=
  (asksOnlyAs_of_ports_eq hst).trans htu

/-- A write to a port that leaves its requests alone. -/
theorem asksOnlyAs_setCport (n : Nat) {f : Port → Port} (hf : ∀ x, (f x).requests = x.requests) :
    AsksOnlyAs port source s (s.setCport n f) := by
  intro k q hq
  rw [State.cport_setCport] at hq
  split at hq
  · exact .inl (hf _ ▸ hq)
  · exact .inl hq

theorem Port.lose_requests (x : Port) (now : Nat) : (x.lose now).requests = x.requests := by
  unfold Port.lose; split <;> rfl

theorem asksOnlyAs_loseAlone (p : Packet) : AsksOnlyAs port source s (loseAlone p s) :=
  (asksOnlyAs_setCport _ fun x => x.lose_requests s.time).trans (asksOnlyAs_of_ports_eq (replyBackoff_ports ..))

/-- The one place where a packet joins the requests: its own port's. -/
theorem asksOnlyAs_request {p : Packet} (hport : p.cmd.port = port) (hsource : p.cmd.source = source) :
    AsksOnlyAs port source s (request p s) := by
  subst hport hsource
  intro k q hq
  unfold request at hq
  rw [State.cport_setCport] at hq
  split at hq
  next hk =>
    obtain hold | hnew := List.mem_append.1 hq
    · exact .inl hold
    · obtain rfl := List.mem_singleton.1 hnew
      exact .inr ⟨hk, rfl, rfl⟩
  next => exact .inl hq

theorem asksOnlyAs_submitPacket {p : Packet} (hport : p.cmd.port = port) (hsource : p.cmd.source = source) :
    AsksOnlyAs port source s (submitPacket p s) := by
  unfold submitPacket
  dsimp only
  split
  · exact .refl s
  · split
    · exact (asksOnlyAs_loseAlone p).after (State.setSpace_ports ..)
    · exact (asksOnlyAs_request hport hsource).after (State.setSpace_ports ..)

/-- Whatever the bytes say, the packet submitted asks under the port and source that took them. -/
theorem asksOnlyAs_submitBytes (bs : List Byte) : AsksOnlyAs port source s (submitBytes port source bs s) := by
  unfold submitBytes
  split
  · split
    · exact asksOnlyAs_setCport _ fun _ => rfl
    · exact .refl s
  · exact asksOnlyAs_submitPacket rfl rfl

theorem asksOnlyAs_mailboxPacket (ctl : Fin 2) : AsksOnlyAs (Fin.ofNat 8 ctl.val) 0 s (mailboxPacket ctl s) :=
  (asksOnlyAs_submitBytes _).after rfl

theorem asksOnlyAs_serialBytes (bs : List Byte) : AsksOnlyAs port 0 s (serialBytes port bs s) := by
  unfold serialBytes
  dsimp only
  refine AsksOnlyAs.after (t := spiTurn port s) ?_ (spiTurn_ports port s)
  split
  · refine AsksOnlyAs.trans ?_ (asksOnlyAs_submitBytes _)
    exact asksOnlyAs_setCport _ fun _ => rfl
  · exact asksOnlyAs_setCport _ fun _ => rfl

/-- Ports 0 to 4 have the one source 0 (T2.1). -/
theorem State.source_eq_zero_of_sourceExists (hport : port.val < 5) (h : s.sourceExists port source = true) :
    source = 0 := by
  have h5 : port ≠ 5 := fun e => by simp [e] at hport
  have h6 : port ≠ 6 := fun e => by simp [e] at hport
  have h7 : port ≠ 7 := fun e => by simp [e] at hport
  unfold State.sourceExists at h
  simp only [h5, h6, h7, if_false] at h
  split at h <;> exact beq_iff_eq.1 (Bool.and_eq_true_iff.1 h).1

theorem serialPort_lt {n : Nat} (h : serialPort n = true) : n < 5 := by
  simp only [serialPort, Bool.or_eq_true, beq_iff_eq] at h
  omega

/-- On every kind of port, mailbox, serial or whole, the bytes that arrive ask only as their sender. -/
theorem asksOnlyAs_arrive (bs : List Byte) : AsksOnlyAs port source s (arrive port source bs s) := by
  unfold arrive
  split
  case isTrue => exact .refl s
  case isFalse hexists =>
    rw [Bool.not_eq_true', Bool.not_eq_false] at hexists
    have hzero : port.val < 5 → source = 0 := fun h => State.source_eq_zero_of_sourceExists h hexists
    split
    case isTrue h0 =>
      subst h0
      rw [hzero (by decide)]
      exact (asksOnlyAs_mailboxPacket 0).after (writeMbReq_ports 0 bs s)
    case isFalse =>
      split
      case isTrue h1 =>
        subst h1
        rw [hzero (by decide)]
        exact (asksOnlyAs_mailboxPacket 1).after (writeMbReq_ports 1 bs s)
      case isFalse =>
        split
        case isTrue hserial =>
          rw [hzero (serialPort_lt hserial)]
          exact asksOnlyAs_serialBytes bs
        case isFalse => exact asksOnlyAs_submitBytes bs

end

/-- PACKET_SUBMIT brings the bytes to the port. -/
theorem exec_packetSubmit (port : Fin 8) (source : BitVec 16) (bs : List Byte) (s : State) :
    exec (.packetSubmit port source bs) s = .next (arrive port source bs s) := rfl

/-- Settles O58: the packet is read from the bytes outside 10 to 15 and the port's own number and source, and every path of
arriving bytes to the requests goes through it. -/
theorem portFillsHeader : Obligations.PortFillsHeader := by
  unfold Obligations.PortFillsHeader
  intro port source bs cs s hlen hhead hbody
  have hparse : parsePacket port source bs = parsePacket port source cs := parsePacket_eq_of_agree hhead hbody
  refine ⟨hparse, rfl, rfl, fun hport => ?_, _, exec_packetSubmit port source bs s, asksOnlyAs_arrive bs⟩
  simp only [exec_packetSubmit, arrive_whole hport, submitBytes_eq_of_agree s hlen hparse]

end Sys2Proof.Machine

/-! ## Proofs: what precedes an instruction of an engine (11, 12) -/

namespace Sys2Proof.Machine
open Sys2Proof

section
variable {i : Instr} {e : Fin 192} {s t : State}

/-! ### Every instruction of an engine issues through `preIssue` -/

/-- What an instruction of an engine runs: a register operation, a control-flow operation, a fence, the accesses of LD or
of the 64-bit instruction, or ST. -/
theorem exec_of_engineOf (h : engineOf i = some e) :
    (∃ op, ∀ s, exec i s = .next (runEng e op s)) ∨
    (∃ op, ∀ s, exec i s = .next (runFlow e op s)) ∨
    (∃ ready f, ∀ s, exec i s = .next (runFence e ready f s)) ∨
    (∃ m, ∀ s, exec i s = .next (issueMem e m s)) ∨
    (∃ rd m, ∀ s, exec i s = execSt e rd m s) := by
  cases i with
  | add | sub | and | or | xor | shl | shr | asr | slt | sltu | min | max | abs | neg | adds | subs | mul | mulh | mulhu
  | cmp | exp | expmin | norm | add2h | sub2h | hadd2h | hsub2h | bf2h | hbf2h | expq | expminq | addi | andi | ori | xori
  | slti | lui | shi | mvp | mvg | mvm | mvmg | addp | mvs | mvsg | macw | msuw | mulw | macuw | macq | msuq | mulq | cmul
  | cmac | cmulj | cmacj | clra | lda | ext | exth | ext2 | expa | norma | adda | suba | mvax | sha | nop =>
    cases h; exact .inl ⟨_, fun _ => rfl⟩
  | br | jmp | call | jr | callr | rete | rep | repi | wait => cases h; exact .inr (.inl ⟨_, fun _ => rfl⟩)
  | fenceSl | fenceDma | fenceI => cases h; exact .inr (.inr (.inl ⟨_, _, fun _ => rfl⟩))
  | ld | accessPrefixPair => cases h; exact .inr (.inr (.inr (.inl ⟨_, fun _ => rfl⟩)))
  | st => cases h; exact .inr (.inr (.inr (.inr ⟨_, _, fun _ => rfl⟩)))
  | _ => cases h

theorem runEng_of_preIssue_error (op : EngOp) (h : preIssue e s = .error t) : runEng e op s = t := by
  simp only [runEng, h]

theorem runFlow_of_preIssue_error (op : EngOp) (h : preIssue e s = .error t) : runFlow e op s = t := by
  simp only [runFlow, h]

theorem runFence_of_preIssue_error (ready : Engine → Bool) (f : Engine → Engine) (h : preIssue e s = .error t) :
    runFence e ready f s = t := by
  simp only [runFence, h]

theorem issueMem_of_preIssue_error (m : MemInstr) (h : preIssue e s = .error t) : issueMem e m s = t := by
  simp only [issueMem, h]

theorem execSt_of_preIssue_error (rd : Fin 32) (m : MemForm) (h : preIssue e s = .error t) :
    execSt e rd m s = .next t := by
  simp only [execSt, h]

/-- Where something precedes the instruction, that is all that happens, whatever the instruction is. -/
theorem exec_of_preIssue_error (hi : engineOf i = some e) (h : preIssue e s = .error t) : exec i s = .next t := by
  obtain ⟨op, hrun⟩ | ⟨op, hrun⟩ | ⟨ready, f, hrun⟩ | ⟨m, hrun⟩ | ⟨rd, m, hrun⟩ := exec_of_engineOf hi
  · rw [hrun, runEng_of_preIssue_error op h]
  · rw [hrun, runFlow_of_preIssue_error op h]
  · rw [hrun, runFence_of_preIssue_error ready f h]
  · rw [hrun, issueMem_of_preIssue_error m h]
  · rw [hrun, execSt_of_preIssue_error rd m h]

/-! ### What precedes it, in the order of the checks -/

theorem preIssue_of_not_executes (hexec : s.executes e = false) : preIssue e s = .error s := by
  simp only [preIssue, hexec, Bool.not_false, if_true]

theorem preIssue_of_storeErr (hexec : s.executes e = true) (herr : (s.eng e).storeErr = true) :
    preIssue e s = .error (takeException e 6 (s.eng e).storeErrStatus s) := by
  simp only [preIssue, hexec, herr, Bool.not_true, Bool.false_eq_true, if_false, if_true]

theorem preIssue_of_pc_outside (hexec : s.executes e = true) (herr : (s.eng e).storeErr = false)
    (hpc : 0x20000 ≤ (s.eng e).pc.toNat) : preIssue e s = .error (takeException e 2 0 s) := by
  simp only [preIssue, hexec, herr, ge_iff_le, hpc, Bool.not_true, Bool.false_eq_true, if_false, if_true]

theorem preIssue_of_cmpAct (hexec : s.executes e = true) (herr : (s.eng e).storeErr = false)
    (hpc : (s.eng e).pc.toNat < 0x20000) (hact : cmpAct e ((s.eng e).cmpHits [0] (s.eng e).pc) s = some t) :
    preIssue e s = .error t := by
  simp only [preIssue, hexec, herr, hact, ge_iff_le, Nat.not_le.2 hpc, Bool.not_true, Bool.false_eq_true, if_false]

end

/-! ### What comparator actions do (R394) -/

section
variable {e : Nat} {acts : BitVec 3} {s : State}

@[simp] theorem State.haltPermitted_eq_true : s.haltPermitted = true ↔ s.secAxis ≠ .quarantine := bne_iff_ne

theorem cmpAct_halts (hhalt : acts.getLsbD 1 = true) (hmode : s.secAxis ≠ .quarantine) :
    cmpAct e acts s = some (s.setEng e fun x => { x with haltAsked := some 1, steps := 0 }) := by
  simp [cmpAct, hhalt, hmode]

theorem cmpAct_breaks (hbreak : acts.getLsbD 0 = true) (hhalt : acts.getLsbD 1 = false ∨ s.secAxis = .quarantine) :
    cmpAct e acts s = some (takeException e 8 0 s) := by
  have hno : ¬(acts.getLsbD 1 = true ∧ s.secAxis ≠ .quarantine) := by
    rintro ⟨hset, hmode⟩
    simp only [hset, hmode, Bool.true_eq_false, or_self] at hhalt
  simp only [cmpAct, Bool.and_eq_true, State.haltPermitted_eq_true, if_neg hno, hbreak, if_true]

end

/-- Settles O16: every instruction of an engine issues through `preIssue`, whose checks come in the order stated. -/
theorem engineFetchFaults : Obligations.EngineFetchFaults := by
  unfold Obligations.EngineFetchFaults
  intro i e s hi
  refine ⟨fun hexec herr hpc => ?fetch, fun hexec herr => ?storeError, fun hexec => ?stays,
    fun hexec herr hpc => ?comparators⟩
  case fetch => exact exec_of_preIssue_error hi (preIssue_of_pc_outside hexec herr hpc)
  case storeError => exact exec_of_preIssue_error hi (preIssue_of_storeErr hexec herr)
  case stays => exact exec_of_preIssue_error hi (preIssue_of_not_executes hexec)
  case comparators =>
    have hin : (s.eng e).pc.toNat < 0x20000 := Nat.lt_succ_of_le hpc
    exact ⟨fun hhalt hmode => exec_of_preIssue_error hi (preIssue_of_cmpAct hexec herr hin (cmpAct_halts hhalt hmode)),
      fun hbreak hhalt => exec_of_preIssue_error hi (preIssue_of_cmpAct hexec herr hin (cmpAct_breaks hbreak hhalt))⟩

end Sys2Proof.Machine
